-- ==== Sys2Proof/Config.lean ====
section
/-! DEFINITION. What an implementation of the block fixes: its parameters (00_scope rules R4, R5).

The spec leaves no value open that the block itself would choose, so this file declares no opaque constant: the only
open values are the answers of the random source, which are inputs and stand in the schedule of State. -/

namespace Sys2Proof

/-- The parameters of one built block: `k` is `K` (rule R4), `rounds` is `MR_ROUNDS` (rule R5). Values outside the legal
ranges are no instances of this block (U19), so they cannot be written. -/
structure Params where
  k : Nat
  rounds : Nat
  legal : 2 ≤ k ∧ k ≤ 65535 ∧ 1 ≤ rounds ∧ rounds ≤ 255
deriving DecidableEq, Repr

/-- `W = 2·K`, the width of a modulus-sized register (rule R4). -/
def Params.w (p : Params) : Nat := 2 * p.k

/-- The default instance: `K = 512`, `MR_ROUNDS = 50`. -/
def Params.default : Params := ⟨512, 50, by decide⟩

end Sys2Proof
end

