-- ==== Sys2Proof/Word.lean ====
section
/-! DEFINITION. The bus word of the block: 32 bits (00_scope rule R4's table, decision D8). -/

namespace Sys2Proof

/-- One word of the register space, and one command word: 32 bits. -/
abbrev Word := BitVec 32

end Sys2Proof
end

