-- ==== Sys2Proof/Syntax.lean ====
section
/-! DEFINITION. The command set RABIN-CMD, version 1 (30_encoding rules R45 to R48). -/

namespace Sys2Proof

/-- The five commands of Table 30-B. A command carries no operand (rule R47). -/
inductive Instr where
  /-- `MODSQR`: modular squaring (rule R65). -/
  | modsqr
  /-- `SQRTCRT`: the four square roots through CRT (rule R71). -/
  | sqrtcrt
  /-- `XGCD`: extended Euclid (rule R84). -/
  | xgcd
  /-- `MRTEST`: the Miller–Rabin primality test (rule R55). -/
  | mrtest
  /-- `CLR`: wipe the registers (rule R92). -/
  | clr
deriving DecidableEq, Repr

/-- The two fields of the one command format `C` (Table 30-A). -/
structure FormatC where
  /-- Bits 7:0, the opcode. -/
  op : BitVec 8
  /-- Bits 31:8, which must be 0. -/
  rsv : BitVec 24
deriving DecidableEq, Repr

/-- Why a command word is illegal (rule R48). -/
inductive Illegal where
  /-- `RSV` is not 0, whatever `OP` is. -/
  | reservedBits (rsv : BitVec 24)
  /-- `OP` is none of the five opcodes. -/
  | opcode (op : BitVec 8)
deriving DecidableEq, Repr

end Sys2Proof
end

