-- ==== Sys2Proof/WellFormed.lean ====
section
/-! DEFINITION. The checks on terms: instance parameters (00_scope rules R4, R5), format-`C` fields (30_encoding rules
R45, R46) and instructions, which carry no operand and so have nothing to check (rule R47). -/

namespace Sys2Proof

/-- The legal ranges of `K` and `MR_ROUNDS`. -/
def Params.inRange (k rounds : Nat) : Bool :=
  decide (2 ≤ k ∧ k ≤ 65535 ∧ 1 ≤ rounds ∧ rounds ≤ 255)

/-- The instance with these parameters, if there is one (U19: outside the ranges there is none). -/
def Params.ofNats (k rounds : Nat) : Option Params :=
  if h : 2 ≤ k ∧ k ≤ 65535 ∧ 1 ≤ rounds ∧ rounds ≤ 255 then some ⟨k, rounds, h⟩ else none

/-- Table 30-A: `RSV` must be 0. -/
def FormatC.rsvOk (f : FormatC) : Bool := f.rsv == 0#24

/-- Table 30-B: the opcodes are 1 to 5. -/
def FormatC.opOk (f : FormatC) : Bool := decide (1 ≤ f.op.toNat ∧ f.op.toNat ≤ 5)

/-- The fields select a command exactly when both checks pass. -/
def FormatC.wellFormed (f : FormatC) : Bool := f.rsvOk && f.opOk

/-- Every instruction is well formed: none carries an operand (rule R47). -/
def Instr.wellFormed : Instr → Bool
  | .modsqr => true
  | .sqrtcrt => true
  | .xgcd => true
  | .mrtest => true
  | .clr => true

end Sys2Proof
end

