-- ==== Sys2Proof/Decode.lean ====
section
/-! DEFINITION. The decoder, total on all 2³² command words (30_encoding rule R48), and after it the encoder. -/

namespace Sys2Proof

/-- Table 30-A: cut a command word into its fields. -/
def fieldsOf (w : Word) : FormatC := ⟨w.extractLsb' 0 8, w.extractLsb' 8 24⟩

/-- Table 30-B, read from the `OP` column. -/
def instrOfOp (op : BitVec 8) : Option Instr :=
  if op = 0x01#8 then some .modsqr
  else if op = 0x02#8 then some .sqrtcrt
  else if op = 0x03#8 then some .xgcd
  else if op = 0x04#8 then some .mrtest
  else if op = 0x05#8 then some .clr
  else none

/-- Rules R46 and R48: a word selects a command exactly when all 32 bits match; every other word is illegal, with the
reason. -/
def decode (w : Word) : Except Illegal Instr :=
  if (fieldsOf w).rsvOk then
    match instrOfOp (fieldsOf w).op with
    | some i => .ok i
    | none => .error (.opcode (fieldsOf w).op)
  else .error (.reservedBits (fieldsOf w).rsv)

/-- The opcode of a command (Table 30-B). -/
def opOf : Instr → BitVec 8
  | .modsqr => 0x01#8
  | .sqrtcrt => 0x02#8
  | .xgcd => 0x03#8
  | .mrtest => 0x04#8
  | .clr => 0x05#8

/-- The command word: `RSV = 0` above `OP` (Table 30-A). -/
def encode (i : Instr) : Word := (0#24 ++ opOf i : BitVec (24 + 8))

/-- The decoder on a word numbered as spec/opcode_table.json numbers it: a command is exactly one word (rule R45), so
every bit above `nbits` is 0. -/
def decodeTableWord (nbits w : Nat) : Option Instr :=
  match decode (BitVec.ofNat 32 (w % 2 ^ nbits)) with
  | .ok i => some i
  | .error _ => none

end Sys2Proof
end

