-- ==== Sys2Proof/Machine/State.lean ====
section
/-! DEFINITION. The state of the machine: the block's architectural state (10_state rules R10 to R19, R22), the state of
an `MRTEST` in flight (rules R114, R128), the instance's parameters, and the model's own fields for what the outside
world does (notes/assumptions 1, 2, 5, 7). -/

namespace Sys2Proof.Machine

/-- An answer of agent `rnd` to one request (60_exceptions rule R114). The third outcome, no answer ever, is a schedule
in which no answer comes. -/
inductive Answer where
  /-- `ok(w)`: a random word; the port carries its low W bits (notes/assumptions 6). -/
  | ok (w : Nat)
  /-- `fail`: the random source is unavailable or exhausted. -/
  | fail
deriving DecidableEq, Repr

/-- The port to agent `rnd`: at most one request is outstanding (rule R114). -/
inductive RndPort where
  /-- No request is outstanding. -/
  | idle
  /-- A request is outstanding and `rnd` has not answered it. -/
  | waiting
  /-- `rnd` has answered and the block has not used the answer yet. -/
  | answered (a : Answer)
deriving DecidableEq, Repr

/-- What happens next at the block: the turns of the agents, in the one order in which their steps take effect
(20_memory rule R38). -/
inductive Turn where
  /-- The block takes its step: it idles, waits, draws, or completes the command in flight. -/
  | block
  /-- The host reads `size` bytes at byte offset `addr` (`MemRead`, rule R34). -/
  | read (addr size : Nat)
  /-- The host writes `size` bytes at byte offset `addr` (`MemWrite`, rule R35). -/
  | write (addr size : Nat) (v : Word)
  /-- `rnd` answers the request numbered `request` (counted from 1). -/
  | answer (request : Nat) (a : Answer)
  /-- The platform asserts reset (70_reset_and_hazards rule R118). -/
  | reset
  /-- The platform releases reset (rule R118). -/
  | release
deriving DecidableEq, Repr

/-- The command errors (60_exceptions rule R103): exactly three (U9). -/
inductive CommandError where
  /-- A draw of `MRTEST` failed (rule R104). -/
  | randomSourceFailure
  /-- `MODSQR` with a zero modulus, `SQRTCRT` with a factor not 3 mod 4 (rule R105). -/
  | invalidModulus
  /-- The command word is none of the five (rule R106). -/
  | illegalCommand
deriving DecidableEq, Repr

/-- The five result flags of `STATUS` (10_state rule R20). -/
structure Flags where
  sx : Bool
  sy : Bool
  prime : Bool
  c3m4 : Bool
  lenk : Bool
deriving DecidableEq, Repr

/-- The fields of `STATUS` (Table 10-B), the reserved bits apart, which read 0. The 32-bit word the host reads is
`statusWord`. -/
structure Status where
  busy : Bool
  done : Bool
  err : Bool
  errcode : BitVec 4
  flags : Flags
deriving DecidableEq, Repr

/-- The data registers: the wide registers of the register space (10_state rules R11 to R13). -/
inductive Reg where
  | opa
  | opb
  | opp
  | opq
  | res0
  | res1
  | res2
  | res3
deriving DecidableEq, Repr

/-- What a word of the register space is (Table 20-A): word `j` of a data register, or one of the four control words. -/
inductive Loc where
  | cmd
  | status
  | param
  | reserved
  | data (r : Reg) (j : Nat)
deriving DecidableEq, Repr

/-- The machine's state. A register holds an unsigned integer (00_scope rule R7); that it fits its width is the
invariant `RegistersFit` of Safety.lean. -/
structure State where
  /-- `K` and `MR_ROUNDS` of the instance; no step changes them. -/
  params : Params
  opa : Nat
  opb : Nat
  opp : Nat
  opq : Nat
  res0 : Nat
  res1 : Nat
  res2 : Nat
  res3 : Nat
  status : Status
  /-- The word of the command in flight, latched at issue (rule R19). -/
  command : Option Word
  /-- The port to `rnd`. -/
  rnd : RndPort
  /-- Rounds the `MRTEST` in flight has passed. -/
  round : Nat
  /-- The platform asserts reset (70_reset_and_hazards rule R118, notes/assumptions 15). -/
  inReset : Bool
  /-- The model's own: what the agents do next, oldest first. -/
  turns : List Turn
  /-- The model's own: the words host reads have returned, newest first. -/
  replies : List Word
  /-- The model's own: how many draws the block has requested. -/
  requests : Nat
deriving DecidableEq, Repr

/-- No fault stops this machine. A command error is a next state (60_exceptions rules R102, R110), and after it the
block accepts any command (rule R111); so this type has no constructor. -/
inductive Fault where
deriving DecidableEq, Repr

/-- Why the model gives a step no meaning. -/
inductive Refusal where
  /-- Raised by an arm of exec for an instruction with no meaning yet (safe). -/
  | notModelled (mnemonic : String)
  /-- Raised by a host access that is not one whole naturally aligned 32-bit word: the port cannot carry it and what the
  platform does is outside the block (20_memory rule R33, U8: a model refuses it). Safe. -/
  | notOneAlignedWord
  /-- Raised by a host access at or beyond word index `4 + 8·NW`: outside the map (20_memory rule R31, U8: a model
  refuses it). Safe. -/
  | beyondMap
deriving DecidableEq, Repr

/-- All five result flags 0. -/
def Flags.none : Flags := ⟨false, false, false, false, false⟩

/-- `STATUS = 0x00000000` (10_state rule R25). -/
def Status.zero : Status := ⟨false, false, false, 0#4, Flags.none⟩

/-- An instance right after reset (10_state rules R24 to R26): every data register 0, `STATUS` 0, nothing in flight, no
request outstanding; reset is released, and nothing is scheduled. -/
def State.resetOf (p : Params) : State :=
  { params := p, opa := 0, opb := 0, opp := 0, opq := 0, res0 := 0, res1 := 0, res2 := 0, res3 := 0,
    status := Status.zero, command := none, rnd := .idle, round := 0, inReset := false, turns := [], replies := [],
    requests := 0 }

/-- The default instance right after reset. -/
def State.reset : State := State.resetOf Params.default

end Sys2Proof.Machine
end

