-- ==== Sys2Proof/Machine/Flags.lean ====
section
/-! DEFINITION. `STATUS`: its word layout (10_state rule R18, Table 10-B), the values it takes at issue, completion and
error (rules R19, R110), and the computation of every flag (rules R56, R88). -/

namespace Sys2Proof.Machine

/-- Table 60-A: the number of a command error. -/
def errorCode : CommandError → BitVec 4
  | .randomSourceFailure => 1#4
  | .invalidModulus => 2#4
  | .illegalCommand => 3#4

/-- Table 10-B: `STATUS` as the word the host reads; bits 3 and 31:13 are 0. -/
def statusWord (st : Status) : Word :=
  BitVec.ofNat 32 (st.busy.toNat + 2 * st.done.toNat + 4 * st.err.toNat + 16 * st.errcode.toNat
    + 256 * st.flags.sx.toNat + 512 * st.flags.sy.toNat + 1024 * st.flags.prime.toNat
    + 2048 * st.flags.c3m4.toNat + 4096 * st.flags.lenk.toNat)

/-- `STATUS <- 0x00000001` (rule R19): busy, every other field 0. -/
def busyStatus : Status := ⟨true, false, false, 0#4, Flags.none⟩

/-- `STATUS` after a completion without error (rule R19). -/
def doneStatus (f : Flags) : Status := ⟨false, true, false, 0#4, f⟩

/-- `STATUS` after a command error (rule R110). -/
def errorStatus (e : CommandError) : Status := ⟨false, true, true, errorCode e, Flags.none⟩

/-- `bitlen(v)` (00_scope rule R7): 0 for 0, else the position of the highest set bit plus one. -/
def bitlen (v : Nat) : Nat := if v = 0 then 0 else v.log2 + 1

/-- `C3M4` (40_primality_test rule R56): `n mod 4 = 3`. -/
def c3m4Flag (n : Nat) : Bool := n % 4 == 3

/-- `LENK` (rule R56): `bitlen(n) = K`. -/
def lenkFlag (k n : Nat) : Bool := bitlen n == k

/-- The flags of a completed `MRTEST` (rules R55, R56). -/
def mrtestFlags (k n : Nat) (prime : Bool) : Flags := ⟨false, false, prime, c3m4Flag n, lenkFlag k n⟩

/-- The flags of a completed `XGCD` (43_extended_euclid rule R88): the signs of `x` and `y`. -/
def xgcdFlags (x y : Int) : Flags := ⟨decide (x < 0), decide (y < 0), false, false, false⟩

end Sys2Proof.Machine
end

