-- ==== Sys2Proof/Machine/Ops.lean ====
section
/-! DEFINITION. The named operations on the state: the register space (20_memory rules R30 to R43), issue and completion
(10_state rule R19), the command error (60_exceptions rule R110), the port to `rnd` (rules R114, R115) and reset
(70_reset_and_hazards rules R118, R119). -/

namespace Sys2Proof.Machine

/-! ### The register space -/

/-- `NW = ceil(W/32)` (00_scope rule R4): the words of a slot, and of a W-bit register. -/
def slotWords (p : Params) : Nat := (p.w + 31) / 32

/-- `NK = ceil(K/32)`: the words of a K-bit register. -/
def factorWords (p : Params) : Nat := (p.k + 31) / 32

/-- The map ends at word index `4 + 8·NW` (20_memory rule R31). -/
def mapWords (p : Params) : Nat := 4 + 8 * slotWords p

/-- `PARAM` (10_state rule R21): `K` in 15:0, `ROUNDS` in 23:16, `VERSION` = 1 in 31:24. -/
def paramWord (p : Params) : Word := BitVec.ofNat 32 (p.k + 65536 * p.rounds + 16777216)

/-- The width of a data register (10_state rules R11 to R13). -/
def regWidth (p : Params) : Reg → Nat
  | .opp => p.k
  | .opq => p.k
  | .opa => p.w
  | .opb => p.w
  | .res0 => p.w
  | .res1 => p.w
  | .res2 => p.w
  | .res3 => p.w

/-- The words a data register uses (Table 20-A). -/
def regWords (p : Params) : Reg → Nat
  | .opp => factorWords p
  | .opq => factorWords p
  | .opa => slotWords p
  | .opb => slotWords p
  | .res0 => slotWords p
  | .res1 => slotWords p
  | .res2 => slotWords p
  | .res3 => slotWords p

/-- The slot of a data register (Table 20-A): its first word index is `4 + slot·NW`. -/
def regSlot : Reg → Nat
  | .opa => 0
  | .opb => 1
  | .opp => 2
  | .opq => 3
  | .res0 => 4
  | .res1 => 5
  | .res2 => 6
  | .res3 => 7

/-- The first word index of a data register (Table 20-A). -/
def regFirst (p : Params) (r : Reg) : Nat := 4 + regSlot r * slotWords p

/-- The host may write the operand registers only (20_memory rule R36). -/
def regWritable : Reg → Bool
  | .opa => true
  | .opb => true
  | .opp => true
  | .opq => true
  | .res0 => false
  | .res1 => false
  | .res2 => false
  | .res3 => false

/-- The value of a data register. -/
def getReg (s : State) : Reg → Nat
  | .opa => s.opa
  | .opb => s.opb
  | .opp => s.opp
  | .opq => s.opq
  | .res0 => s.res0
  | .res1 => s.res1
  | .res2 => s.res2
  | .res3 => s.res3

/-- `REG <- v`. -/
def setReg (r : Reg) (v : Nat) (s : State) : State :=
  match r with
  | .opa => { s with opa := v }
  | .opb => { s with opb := v }
  | .opp => { s with opp := v }
  | .opq => { s with opq := v }
  | .res0 => { s with res0 := v }
  | .res1 => { s with res1 := v }
  | .res2 => { s with res2 := v }
  | .res3 => { s with res3 := v }

/-- The data register of a slot of the map. -/
def regOfSlot (n : Nat) : Option Reg :=
  match n with
  | 0 => some .opa
  | 1 => some .opb
  | 2 => some .opp
  | 3 => some .opq
  | 4 => some .res0
  | 5 => some .res1
  | 6 => some .res2
  | 7 => some .res3
  | _ => none

/-- Table 20-A: what word index `i` is; none at or beyond the end of the map. -/
def locate (p : Params) (i : Nat) : Option Loc :=
  if i = 0 then some .cmd
  else if i = 1 then some .status
  else if i = 2 then some .param
  else if i = 3 then some .reserved
  else
    match regOfSlot ((i - 4) / slotWords p) with
    | none => none
    | some r =>
      if (i - 4) % slotWords p < regWords p r then some (.data r ((i - 4) % slotWords p)) else some .reserved

/-- Word `j` of a register value, little-endian (20_memory rule R32). -/
def wordOf (v j : Nat) : Word := BitVec.ofNat 32 (v / 2 ^ (32 * j))

/-- The value with word `j` replaced, the bits above the register's width dropped (rules R32, R35). -/
def setWord (width v j : Nat) (x : Word) : Nat :=
  (v / 2 ^ (32 * (j + 1)) * 2 ^ (32 * (j + 1)) + x.toNat * 2 ^ (32 * j) + v % 2 ^ (32 * j)) % 2 ^ width

/-- What a read returns at a place of the map (rules R17, R34, R42, R43): while busy, only `STATUS` and `PARAM` read as
themselves and every other word reads 0. -/
def readLoc (s : State) : Loc → Word
  | .cmd => 0#32
  | .status => statusWord s.status
  | .param => paramWord s.params
  | .reserved => 0#32
  | .data r j => if s.status.busy then 0#32 else wordOf (getReg s r) j

/-- The host receives the word its read returns. -/
def recordReply (x : Word) (s : State) : State := { s with replies := x :: s.replies }

/-- A host read of word `i`: the reply, and nothing else (rule R34). -/
def hostRead (i : Nat) (s : State) : Host.Outcome State Fault Refusal :=
  match locate s.params i with
  | none => .refused .beyondMap
  | some l => .next (recordReply (readLoc s l) s)

/-- Issue (10_state rule R19): busy, every other field of `STATUS` 0, the command word latched. This is also the return
from a command error: it clears `ERR` and `ERRCODE` (60_exceptions rule R111). -/
def issue (w : Word) (s : State) : State :=
  { s with status := busyStatus, command := some w, rnd := .idle, round := 0 }

/-- What a write does at a place of the map while idle (20_memory rule R35). -/
def writeLoc (v : Word) (s : State) : Loc → State
  | .cmd => issue v s
  | .status => s
  | .param => s
  | .reserved => s
  | .data r j => if regWritable r then setReg r (setWord (regWidth s.params r) (getReg s r) j v) s else s

/-- The block takes no host write: while busy (rule R42), and while reset is asserted, since the state then is the reset
state (70_reset_and_hazards rule R118, notes/assumptions 15). -/
def dropsWrites (s : State) : Bool := s.status.busy || s.inReset

/-- A host write of word `i`. -/
def hostWrite (i : Nat) (v : Word) (s : State) : Host.Outcome State Fault Refusal :=
  match locate s.params i with
  | none => .refused .beyondMap
  | some l => .next (if dropsWrites s then s else writeLoc v s l)

/-- The port carries one whole naturally aligned 32-bit word (rule R33). -/
def oneAlignedWord (addr size : Nat) : Bool := size == 4 && addr % 4 == 0

/-! ### Completion, the command error, the port to `rnd`, reset -/

/-- Completion without error (10_state rule R19): all four results and all five flags are written, `BUSY <- 0`,
`DONE <- 1`, and nothing is in flight any more. -/
def complete (r0 r1 r2 r3 : Nat) (f : Flags) (s : State) : State :=
  { s with res0 := r0, res1 := r1, res2 := r2, res3 := r3, status := doneStatus f,
           command := none, rnd := .idle, round := 0 }

/-- Taking a command error (60_exceptions rule R110): results and flags 0, `ERR`, `ERRCODE`, `DONE` written, `BUSY`
cleared, operands unchanged. Nothing is saved, no mode or mask changes, control goes nowhere. -/
def commandError (e : CommandError) (s : State) : State :=
  { s with res0 := 0, res1 := 0, res2 := 0, res3 := 0, status := errorStatus e,
           command := none, rnd := .idle, round := 0 }

/-- The operand registers written 0 (44_control_and_host rule R92). -/
def wipeOperands (s : State) : State := { s with opa := 0, opb := 0, opp := 0, opq := 0 }

/-- The block asks `rnd` for one draw (rule R114). -/
def requestDraw (s : State) : State := { s with rnd := .waiting, requests := s.requests + 1 }

/-- One more round has passed. -/
def countRound (s : State) : State := { s with round := s.round + 1 }

/-- An answer as it arrives over W wires (rule R114). -/
def answerOnWires (p : Params) : Answer → Answer
  | .ok w => .ok (w % 2 ^ p.w)
  | .fail => .fail

/-- `rnd` answers request number `k`: taken when that request is outstanding, discarded otherwise (rules R115, R119). -/
def acceptAnswer (k : Nat) (a : Answer) (s : State) : State :=
  if s.rnd = .waiting ∧ k = s.requests then { s with rnd := .answered (answerOnWires s.params a) } else s

/-- Reset is asserted (70_reset_and_hazards rules R118, R119): the block's reset state; what the outside world holds
stays. -/
def blockReset (s : State) : State :=
  { State.resetOf s.params with inReset := true, turns := s.turns, replies := s.replies, requests := s.requests }

/-- Reset is released: the block's state stays the reset state (rule R118). -/
def releaseReset (s : State) : State := { s with inReset := false }

end Sys2Proof.Machine
end

