-- ==== Sys2Proof/Machine/Clr.lean ====
section
/-! DEFINITION. `CLR`, which wipes the eight data registers (44_control_and_host rule R92). -/

namespace Sys2Proof.Machine

/-- Rule R92: the only command that writes operand registers. -/
def execClr (s : State) : Host.Outcome State Fault Refusal :=
  .next (complete 0 0 0 0 Flags.none (wipeOperands s))

end Sys2Proof.Machine
end

