-- ==== Sys2Proof/Machine/Arith.lean ====
section
/-! DEFINITION. The arithmetic of the commands, exact on unbounded integers (00_scope rule R8): modular exponentiation,
the extended Euclidean algorithm (Listing 43-A), one Miller–Rabin round (Listing 40-A). Recursion is structural on a
fuel large enough that it never runs out; how a value is computed is invisible (U22). -/

namespace Sys2Proof.Machine

/-- Square-and-multiply: `acc · b^e mod n` when `fuel` is at least the bit length of `e`. -/
def modexpLoop (n : Nat) : Nat → Nat → Nat → Nat → Nat
  | 0, _, _, acc => acc
  | fuel + 1, b, e, acc =>
    if e = 0 then acc
    else modexpLoop n fuel (b * b % n) (e / 2) (if e % 2 = 1 then acc * b % n else acc)

/-- `modexp(b, e, n) = b^e mod n` (rule R8). -/
def modexp (b e n : Nat) : Nat := modexpLoop n (e.log2 + 1) (b % n) e (1 % n)

/-- The loop of Listing 43-A: `(r0, s0, t0)` when `r1 = 0`; `r1` strictly decreases, so `fuel ≥ r1` suffices. -/
def egcdLoop : Nat → Nat → Nat → Int → Int → Int → Int → Nat × Int × Int
  | 0, r0, _, s0, _, t0, _ => (r0, s0, t0)
  | fuel + 1, r0, r1, s0, s1, t0, t1 =>
    if r1 = 0 then (r0, s0, t0)
    else egcdLoop fuel r1 (r0 - r0 / r1 * r1) s1 (s0 - (r0 / r1 : Nat) * s1) t1 (t0 - (r0 / r1 : Nat) * t1)

/-- `EGCD(u, v) = (g, x, y)` (43_extended_euclid rule R85, Listing 43-A). -/
def egcd (u v : Nat) : Nat × Int × Int := egcdLoop (v + 1) u v 1 0 0 1

/-- The non-negative remainder of a signed sum (rule R8), as a register value. -/
def modInt (a : Int) (n : Nat) : Nat := (a % (n : Int)).toNat

/-- `(s, d)` with `m = 2^s · d` and `d` odd, for `0 < m` and `fuel` at least the bit length of `m` (Listing 40-A). -/
def splitTwos : Nat → Nat → Nat × Nat
  | 0, m => (0, m)
  | fuel + 1, m =>
    if m % 2 = 0 then ((splitTwos fuel (m / 2)).1 + 1, (splitTwos fuel (m / 2)).2) else (0, m)

/-- The inner loop of Listing 40-A: at most `j` squarings of `x`, passed when one of them gives `n − 1`. -/
def squaringsPass (n : Nat) : Nat → Nat → Bool
  | 0, _ => false
  | j + 1, x => if x * x % n = n - 1 then true else squaringsPass n j (x * x % n)

/-- The base of a round from the draw `w` (40_primality_test rule R59). -/
def mrBase (n w : Nat) : Nat := 2 + w % (n - 3)

/-- One round of Listing 40-A with base `a`: does `n` pass? -/
def mrRoundPasses (n a : Nat) : Bool :=
  let sd := splitTwos ((n - 1).log2 + 1) (n - 1)
  let x := modexp a sd.2 n
  if x = 1 then true else if x = n - 1 then true else squaringsPass n (sd.1 - 1) x

/-- The cases of Listing 40-A that need no draw (rule R60), with their verdict; none for an odd `n ≥ 5`. -/
def mrWithoutDraws (n : Nat) : Option Bool :=
  if n < 2 then some false
  else if n < 4 then some true
  else if n % 2 = 0 then some false
  else none

end Sys2Proof.Machine
end

