-- ==== Sys2Proof/Machine/Operands.lean ====
section
/-! DEFINITION. The implicit operands of each command: the "reads" column of Table 10-A (10_state rule R14). A command
word carries no operand (30_encoding rule R47), so these are all the operand forms there are. -/

namespace Sys2Proof.Machine

/-- `MODSQR` reads `m = OPA`, `N = OPB`. -/
structure ModsqrOperands where
  m : Nat
  n : Nat
deriving DecidableEq, Repr

/-- `SQRTCRT` reads `c = OPA`, `p = OPP`, `q = OPQ`. -/
structure SqrtcrtOperands where
  c : Nat
  p : Nat
  q : Nat
deriving DecidableEq, Repr

/-- `XGCD` reads `u = OPA`, `v = OPB`. -/
structure XgcdOperands where
  u : Nat
  v : Nat
deriving DecidableEq, Repr

def modsqrOperands (s : State) : ModsqrOperands := ⟨s.opa, s.opb⟩

def sqrtcrtOperands (s : State) : SqrtcrtOperands := ⟨s.opa, s.opp, s.opq⟩

def xgcdOperands (s : State) : XgcdOperands := ⟨s.opa, s.opb⟩

/-- `MRTEST` reads `n = OPA`. -/
def mrtestOperand (s : State) : Nat := s.opa

/-- The operand check of `SQRTCRT` (42_sqrt_crt rule R73). -/
def factorsOk (o : SqrtcrtOperands) : Bool := o.p % 4 == 3 && o.q % 4 == 3

end Sys2Proof.Machine
end

