-- ==== Sys2Proof/Machine/Modsqr.lean ====
section
/-! DEFINITION. `MODSQR`, the modular squarer (41_modular_squarer rules R65 to R70). -/

namespace Sys2Proof.Machine

/-- Listing 41-A. No validation of `m` against `N` (rule R67). -/
def execModsqr (s : State) : Host.Outcome State Fault Refusal :=
  let o := modsqrOperands s
  if o.n = 0 then .next (commandError .invalidModulus s)
  else .next (complete (o.m * o.m % o.n) 0 0 0 Flags.none s)

end Sys2Proof.Machine
end

