-- ==== Sys2Proof/Machine/Mrtest.lean ====
section
/-! DEFINITION. `MRTEST`, the Miller–Rabin primality test (40_primality_test rules R55 to R64): its meaning as steps with
the draws of `rnd` between them (70_reset_and_hazards rule R128), and Listing 40-A as one function of the answers, which
the steps are to refine. -/

namespace Sys2Proof.Machine

/-- Completion of `MRTEST` with a verdict (rule R55). -/
def completeMrtest (prime : Bool) (s : State) : State :=
  complete 0 0 0 0 (mrtestFlags s.params.k (mrtestOperand s) prime) s

/-- The verdict of one round, given its draw `w` (Listing 40-A): a failed round ends the test, the last passed round ends
it, any other passed round starts the next one with a new request (rule R60). -/
def mrtestRound (w : Nat) (s : State) : State :=
  if mrRoundPasses (mrtestOperand s) (mrBase (mrtestOperand s) w) then
    if s.round + 1 < s.params.rounds then requestDraw (countRound s) else completeMrtest true s
  else completeMrtest false s

/-- One turn of the block with `MRTEST` in flight: the cases without draws complete at once; otherwise it requests its
first draw, waits for the answer as long as it takes (rule R115), and uses the answer. -/
def execMrtest (s : State) : Host.Outcome State Fault Refusal :=
  match mrWithoutDraws (mrtestOperand s) with
  | some prime => .next (completeMrtest prime s)
  | none =>
    match s.rnd with
    | .idle => .next (requestDraw s)
    | .waiting => .next s
    | .answered .fail => .next (commandError .randomSourceFailure s)
    | .answered (.ok w) => .next (mrtestRound w s)

/-- The while loop of Listing 40-A with `left` rounds to go, on the answers of `rnd` in order: the verdict or the error,
with the answers not asked for; none when the answers run out first (the command hangs). -/
def listingRounds (n : Nat) : Nat → List Answer → Option (Except CommandError Bool × List Answer)
  | 0, as => some (.ok true, as)
  | _ + 1, [] => none
  | _ + 1, .fail :: as => some (.error .randomSourceFailure, as)
  | left + 1, .ok w :: as =>
    if mrRoundPasses n (mrBase n w) then listingRounds n left as else some (.ok false, as)

/-- Listing 40-A as a function of the candidate and the answers. -/
def listing40A (rounds n : Nat) (as : List Answer) : Option (Except CommandError Bool × List Answer) :=
  match mrWithoutDraws n with
  | some prime => some (.ok prime, as)
  | none => listingRounds n rounds as

/-- The state in which an `MRTEST` ends, from Listing 40-A's result (rules R55, R61). -/
def mrtestEnd (r : Except CommandError Bool) (s : State) : State :=
  match r with
  | .ok prime => completeMrtest prime s
  | .error e => commandError e s

end Sys2Proof.Machine
end

