-- ==== Sys2Proof/Machine/Sqrtcrt.lean ====
section
/-! DEFINITION. `SQRTCRT`, modular square roots through CRT (42_sqrt_crt rules R71 to R83). -/

namespace Sys2Proof.Machine

/-- The candidate of rule R76 with half roots `r` mod `p` and `s` mod `q`: `(a·p·s + b·q·r) mod p·q`. -/
def crtCandidate (a b : Int) (p q r s : Nat) : Nat := modInt (a * p * s + b * q * r) (p * q)

/-- Listing 42-A. Only the two congruences are checked (rules R72, R73, R80). -/
def execSqrtcrt (s : State) : Host.Outcome State Fault Refusal :=
  let o := sqrtcrtOperands s
  if factorsOk o then
    let r := modexp o.c ((o.p + 1) / 4) o.p
    let t := modexp o.c ((o.q + 1) / 4) o.q
    let gab := egcd o.p o.q
    let m := crtCandidate gab.2.1 gab.2.2 o.p o.q
    .next (complete (m r t) (m (o.p - r) t) (m r (o.q - t)) (m (o.p - r) (o.q - t)) Flags.none s)
  else .next (commandError .invalidModulus s)

end Sys2Proof.Machine
end

