-- ==== Sys2Proof/Machine/Xgcd.lean ====
section
/-! DEFINITION. `XGCD`, the extended Euclidean algorithm (43_extended_euclid rules R84 to R91). -/

namespace Sys2Proof.Machine

/-- Listing 43-A's `XGCD`: magnitudes in `RES0`, `RES1`, signs in `SX`, `SY` (rule R88), `g` in `RES2`. -/
def execXgcd (s : State) : Host.Outcome State Fault Refusal :=
  let o := xgcdOperands s
  let gxy := egcd o.u o.v
  .next (complete gxy.2.1.natAbs gxy.2.2.natAbs gxy.1 0 (xgcdFlags gxy.2.1 gxy.2.2) s)

end Sys2Proof.Machine
end

