-- ==== Sys2Proof/Machine/Dispatch.lean ====
section
/-! DEFINITION. The meaning of each command: one turn of the block with that command in flight. -/

namespace Sys2Proof.Machine

def exec (i : Instr) (s : State) : Host.Outcome State Fault Refusal :=
  match i with
  | .modsqr => Sys2Proof.Machine.execModsqr s
  | .sqrtcrt => Sys2Proof.Machine.execSqrtcrt s
  | .xgcd => Sys2Proof.Machine.execXgcd s
  | .mrtest => Sys2Proof.Machine.execMrtest s
  | .clr => Sys2Proof.Machine.execClr s

end Sys2Proof.Machine
end

