-- ==== Sys2Proof/Machine/Turns.lean ====
section
/-! DEFINITION. What one turn of the schedule does: a turn of the block, a host access, an answer of `rnd`, a reset. -/

namespace Sys2Proof.Machine

/-- The block's turn: idle without a command in flight (10_state rule R16); otherwise the latched word is decoded and
its meaning runs, and an illegal word completes with `ILLEGAL_COMMAND` (30_encoding rule R48). -/
def blockTurn (s : State) : Host.Outcome State Fault Refusal :=
  match s.command with
  | none => .next s
  | some w =>
    match decode w with
    | .ok i => exec i s
    | .error _ => .next (commandError .illegalCommand s)

/-- One turn, by agent (20_memory rule R38). -/
def takeTurn (t : Turn) (s : State) : Host.Outcome State Fault Refusal :=
  match t with
  | .block => blockTurn s
  | .read addr size => if oneAlignedWord addr size then hostRead (addr / 4) s else .refused .notOneAlignedWord
  | .write addr size v => if oneAlignedWord addr size then hostWrite (addr / 4) v s else .refused .notOneAlignedWord
  | .answer k a => .next (acceptAnswer k a s)
  | .reset => .next (blockReset s)
  | .release => .next (releaseReset s)

/-- The schedule moves on: the turn now being taken is struck off. -/
def dropTurn (s : State) : State := { s with turns := s.turns.tail }

/-- The next turn of the schedule; when nothing is scheduled the block takes its turn. -/
def nextTurn (s : State) : Host.Outcome State Fault Refusal :=
  match s.turns with
  | [] => blockTurn (dropTurn s)
  | t :: _ => takeTurn t (dropTurn s)

/-- The state right after the host's write of `w` to `CMD` was issued, with the block's turn next; such a write needs
reset released. -/
def placeCommand (w : Word) (s : State) : State :=
  { issue w s with inReset := false, turns := .block :: s.turns }

end Sys2Proof.Machine
end

