-- ==== Sys2Proof/Machine/Step.lean ====
section
/-! DEFINITION. The step of the machine, and where the step finds its next command. -/

namespace Sys2Proof.Machine

/-- One step: the next turn of the schedule. -/
def step (s : State) : Host.Outcome State Fault Refusal := nextTurn s

/-- The state with the command word latched, as issue leaves it, and the block to move next: the very next step runs
exactly that command (notes/assumptions 8). Bits above `nbits` are 0. -/
def State.withFetchWord (s : State) (nbits w : Nat) : State :=
  placeCommand (BitVec.ofNat 32 (w % 2 ^ nbits)) s

end Sys2Proof.Machine
end

