-- ==== Sys2Proof/Machine/Script.lean ====
section
/-! DEFINITION. The host's side: whole-register access as bus turns (20_memory rule R37), host scripts (30_encoding rules
R50, R51), the host procedures of key generation (44_control_and_host rules R95, R96) and the message encoding (rule R99).
The block does not depend on this file; the answers of `rnd`, the host's own random source and when the block moves are
inputs of a `Session` (notes/assumptions 18, 21). -/

namespace Sys2Proof.Machine

/-! ### Whole-register access (rule R37) -/

/-- The write of word `j` of a register with the value `v`. -/
def wordWriteTurn (p : Params) (r : Reg) (v j : Nat) : Turn := .write (4 * (regFirst p r + j)) 4 (wordOf v j)

/-- The read of word `j` of a register. -/
def wordReadTurn (p : Params) (r : Reg) (j : Nat) : Turn := .read (4 * (regFirst p r + j)) 4

/-- `RegWrite(REG, v)`: the word writes, from word 0 up, one of the orders R37 allows (notes/assumptions 18). -/
def regWriteTurns (p : Params) (r : Reg) (v : Nat) : List Turn :=
  (List.range (regWords p r)).map (wordWriteTurn p r v)

/-- `RegRead(REG)`: the word reads, from word 0 up, as above. -/
def regReadTurns (p : Params) (r : Reg) : List Turn := (List.range (regWords p r)).map (wordReadTurn p r)

/-- The value whose words are listed, word 0 first (rule R32). -/
def assembleWords : List Word → Nat
  | [] => 0
  | x :: xs => x.toNat + 2 ^ 32 * assembleWords xs

/-! ### Script syntax (Table 30-C) -/

/-- A field of `STATUS` (Table 10-B), as a script names it: `status.FIELD`. -/
inductive StatusField where
  | busy
  | done
  | err
  | errcode
  | sx
  | sy
  | prime
  | c3m4
  | lenk
deriving DecidableEq, Repr

/-- Table 10-B: the lowest bit of the field. -/
def fieldLow : StatusField → Nat
  | .busy => 0
  | .done => 1
  | .err => 2
  | .errcode => 4
  | .sx => 8
  | .sy => 9
  | .prime => 10
  | .c3m4 => 11
  | .lenk => 12

/-- Table 10-B: the width of the field. -/
def fieldWidth : StatusField → Nat
  | .busy => 1
  | .done => 1
  | .err => 1
  | .errcode => 4
  | .sx => 1
  | .sy => 1
  | .prime => 1
  | .c3m4 => 1
  | .lenk => 1

/-- A value the host computes from its script variables; as a condition, it holds when it is not 0. Rule R50 leaves open
which operations a host has (DESIGN CHOICE, notes/assumptions 18). -/
inductive Expr where
  | lit (v : Int)
  | var (x : String)
  /-- `status.FIELD`: the field of the script variable `status`. -/
  | field (f : StatusField)
  | neg (e : Expr)
  | add (e f : Expr)
  | mul (e f : Expr)
  | eq (e f : Expr)
  | lt (e f : Expr)
  | not (e : Expr)
  | and (e f : Expr)
  /-- `c ? e : f`. -/
  | cond (c e f : Expr)
deriving DecidableEq, Repr

/-- The registers `WR` may name (Table 30-C). -/
inductive OperandReg where
  | opa
  | opb
  | opp
  | opq
deriving DecidableEq, Repr

def OperandReg.toReg : OperandReg → Reg
  | .opa => .opa
  | .opb => .opb
  | .opp => .opp
  | .opq => .opq

/-- A register a script may read (rule R36). -/
inductive Readable where
  | status
  | param
  | data (r : Reg)
deriving DecidableEq, Repr

/-- A line of a host script. -/
inductive Line where
  /-- `WR reg, value`. -/
  | wr (r : OperandReg) (e : Expr)
  /-- `CMD mnemonic`. -/
  | cmd (i : Instr)
  /-- `CMD .word 0x...`. -/
  | cmdWord (w : Word)
  /-- `WAIT`. -/
  | wait
  /-- `RD var, reg`. -/
  | rd (x : String) (r : Readable)
  /-- `IF cond GOTO label`. -/
  | ifGoto (c : Expr) (l : String)
  /-- `label:`. -/
  | label (l : String)
  /-- `DRAW var, bits`. -/
  | draw (x : String) (bits : Nat)
  /-- A computation of the host, `var <- value`. -/
  | assign (x : String) (e : Expr)
  /-- `return` (Listing 44-A): the script ends. -/
  | ret
  /-- The host procedure fails fatally (rule R95). -/
  | fatal
deriving DecidableEq, Repr

/-! ### Running a script -/

/-- A host at work on one block: the block's state, the script's variables and next line, and the inputs still to come:
the answers of `rnd`, the draws of the host's own random source, and how many turns the block takes before each of the
next accesses of the host. -/
structure Session where
  block : State
  /-- The variables assigned so far, `status` among them once a `WAIT` or `RD` has given it a value. -/
  vars : List (String × Int)
  line : Nat
  answers : List Answer
  draws : List Nat
  /-- When the block moves between the host's accesses: the spec leaves it open (10_state rule R19, 70_reset_and_hazards
  rule R125), so it is an input; where the list has ended, the block moves in `WAIT` only (DESIGN CHOICE,
  notes/assumptions 21). -/
  moves : List Nat
deriving DecidableEq, Repr

/-- Why a script stops before its end. -/
inductive ScriptStop where
  /-- `WAIT` polls for ever: `rnd` never answers (60_exceptions rule R115). -/
  | hung
  /-- The block refuses an access. -/
  | refused
  /-- The host's random source fails: fatal (rule R95). -/
  | drawFailed
  /-- The host procedure has failed fatally on the error of a command (Listing 44-A). -/
  | fatal
  /-- The value of a `WR` does not fit its register. -/
  | doesNotFit
  /-- A `DRAW` of no bits, which can set no most significant bit. -/
  | drawOfNoBits
  /-- A line uses a script variable that nothing has assigned, `status` before the first `WAIT` among them. -/
  | unassigned
  /-- A `GOTO` whose condition holds names a label that stands nowhere in the script. -/
  | noSuchLabel (l : String)
  /-- The script has not ended within the given number of lines (rule R95: no bound on the iteration count). -/
  | outOfLines
deriving DecidableEq, Repr

/-- The value of a script variable; none before its first assignment. -/
def lookupVar (x : String) : List (String × Int) → Option Int
  | [] => none
  | (y, v) :: vs => if x = y then some v else lookupVar x vs

/-- The field of a value read from `STATUS`. -/
def fieldOf (f : StatusField) (v : Int) : Int := v / 2 ^ fieldLow f % 2 ^ fieldWidth f

/-- A truth value as a script value. -/
def truth (b : Bool) : Int := if b then 1 else 0

/-- The value of an expression; none when it uses a variable that has none. -/
def evalExpr (vars : List (String × Int)) : Expr → Option Int
  | .lit v => some v
  | .var x => lookupVar x vars
  | .field f => (lookupVar "status" vars).map (fieldOf f)
  | .neg e => (evalExpr vars e).map fun v => -v
  | .add e f => (evalExpr vars e).bind fun v => (evalExpr vars f).map fun u => v + u
  | .mul e f => (evalExpr vars e).bind fun v => (evalExpr vars f).map fun u => v * u
  | .eq e f => (evalExpr vars e).bind fun v => (evalExpr vars f).map fun u => truth (decide (v = u))
  | .lt e f => (evalExpr vars e).bind fun v => (evalExpr vars f).map fun u => truth (decide (v < u))
  | .not e => (evalExpr vars e).map fun v => truth (decide (v = 0))
  | .and e f => (evalExpr vars e).bind fun v => (evalExpr vars f).map fun u => truth (decide (v ≠ 0 ∧ u ≠ 0))
  | .cond c e f => (evalExpr vars c).bind fun v => if v ≠ 0 then evalExpr vars e else evalExpr vars f

/-- A script variable takes a value. -/
def setVar (name : String) (v : Int) (x : Session) : Session := { x with vars := (name, v) :: x.vars }

/-- One turn taken by the block or, on the bus, by the host. -/
def actOnBlock (t : Turn) (x : Session) : Except ScriptStop Session :=
  match takeTurn t x.block with
  | .next b => .ok { x with block := b }
  | .fault _ => .error .refused
  | .refused _ => .error .refused

/-- `rnd` answers an outstanding request with its next answer, if it has one. -/
def rndTurn (x : Session) : Session :=
  match x.block.rnd, x.answers with
  | .waiting, a :: as => { x with block := acceptAnswer x.block.requests a x.block, answers := as }
  | _, _ => x

/-- `n` turns of the block, `rnd` answering after each. -/
def blockMoves : Nat → Session → Except ScriptStop Session
  | 0, x => .ok x
  | n + 1, x =>
    match actOnBlock .block x with
    | .ok y => blockMoves n (rndTurn y)
    | .error e => .error e

/-- One access of the host, after the turns the block takes before it. -/
def hostAccess (t : Turn) (x : Session) : Except ScriptStop Session :=
  match blockMoves (x.moves.headD 0) { x with moves := x.moves.tail } with
  | .ok y => actOnBlock t y
  | .error e => .error e

/-- Several accesses of the host, in order. -/
def hostAccesses : List Turn → Session → Except ScriptStop Session
  | [], x => .ok x
  | t :: ts, x =>
    match hostAccess t x with
    | .ok y => hostAccesses ts y
    | .error e => .error e

/-- The value the latest reads have returned, `n` words, word 0 read first. -/
def lastRead (n : Nat) (b : State) : Nat := assembleWords (b.replies.take n).reverse

/-- `WAIT`: read `STATUS` until `BUSY` is 0, and leave the value read in the variable `status`; after a read that finds
the block busy it takes a turn more, so that it moves in every `WAIT` (notes/assumptions 21). -/
def waitIdle : Nat → Session → Except ScriptStop Session
  | 0, _ => .error .hung
  | polls + 1, x =>
    match hostAccess (.read 4 4) x with
    | .error e => .error e
    | .ok y =>
      if fieldOf .busy (lastRead 1 y.block) ≠ 0 then
        match blockMoves 1 y with
        | .error e => .error e
        | .ok z => waitIdle polls z
      else .ok (setVar "status" (lastRead 1 y.block) y)

/-- The accesses of `RD`. -/
def readTurns (p : Params) : Readable → List Turn
  | .status => [.read 4 4]
  | .param => [.read 8 4]
  | .data r => regReadTurns p r

/-- One line of a script, the line counter apart (Table 30-C). -/
def runLine (l : Line) (x : Session) : Except ScriptStop Session :=
  match l with
  | .wr r e =>
    match evalExpr x.vars e with
    | none => .error .unassigned
    | some v =>
      if 0 ≤ v ∧ v < (2 ^ regWidth x.block.params r.toReg : Nat) then
        hostAccesses (regWriteTurns x.block.params r.toReg v.toNat) x
      else .error .doesNotFit
  | .cmd i => hostAccess (.write 0 4 (encode i)) x
  | .cmdWord w => hostAccess (.write 0 4 w) x
  | .wait => waitIdle (x.block.params.rounds + 3) x
  | .rd name r =>
    let ts := readTurns x.block.params r
    (hostAccesses ts x).map fun y => setVar name (lastRead ts.length y.block) y
  | .ifGoto _ _ => .ok x
  | .label _ => .ok x
  | .draw name bits =>
    match bits, x.draws with
    | 0, _ => .error .drawOfNoBits
    | _ + 1, [] => .error .drawFailed
    | b + 1, n :: ns => .ok (setVar name (2 ^ b + n % 2 ^ b : Nat) { x with draws := ns })
  | .assign name e =>
    match evalExpr x.vars e with
    | none => .error .unassigned
    | some v => .ok (setVar name v x)
  | .ret => .ok x
  | .fatal => .error .fatal

/-- The line after `l` at line `n`. `IF cond GOTO label` jumps to the first line that is the label when the condition
holds; where the script holds no such label the spec is silent, and the script stops by name (DESIGN CHOICE,
notes/assumptions 18). -/
def nextLine (prog : List Line) (l : Line) (vars : List (String × Int)) (n : Nat) : Except ScriptStop Nat :=
  match l with
  | .ifGoto c target =>
    match evalExpr vars c with
    | none => .error .unassigned
    | some v =>
      if v = 0 then .ok (n + 1)
      else
        match prog.findIdx? (· == .label target) with
        | none => .error (.noSuchLabel target)
        | some k => .ok k
  | .ret => .ok prog.length
  | _ => .ok (n + 1)

/-- At most `fuel` lines of a script; it ends when it runs past its last line. -/
def runScript : Nat → List Line → Session → Except ScriptStop Session
  | 0, prog, x => if x.line < prog.length then .error .outOfLines else .ok x
  | fuel + 1, prog, x =>
    match prog[x.line]? with
    | none => .ok x
    | some l =>
      match runLine l x with
      | .error e => .error e
      | .ok y =>
        match nextLine prog l y.vars x.line with
        | .error e => .error e
        | .ok n => runScript fuel prog { y with line := n }

/-! ### Pseudo-instructions (Table 30-D) and host procedures -/

/-- `ENCRYPT c, m, N`. -/
def encryptLines (c : String) (m n : Expr) : List Line :=
  [.wr .opa m, .wr .opb n, .cmd .modsqr, .wait, .rd c (.data .res0)]

/-- `DECRYPT (m1, m2, m3, m4), c, p, q`. -/
def decryptLines (m1 m2 m3 m4 : String) (c p q : Expr) : List Line :=
  [.wr .opa c, .wr .opp p, .wr .opq q, .cmd .sqrtcrt, .wait,
   .rd m1 (.data .res0), .rd m2 (.data .res1), .rd m3 (.data .res2), .rd m4 (.data .res3)]

/-- `EXTGCD (g, x, y), u, v`: the host rebuilds the signed coefficients from magnitudes and signs (rule R86). -/
def extgcdLines (g x y : String) (u v : Expr) : List Line :=
  [.wr .opa u, .wr .opb v, .cmd .xgcd, .wait,
   .rd "ax" (.data .res0), .rd "ay" (.data .res1), .rd g (.data .res2),
   .assign x (.cond (.field .sx) (.neg (.var "ax")) (.var "ax")),
   .assign y (.cond (.field .sy) (.neg (.var "ay")) (.var "ay"))]

/-- `status.PRIME & status.C3M4 & status.LENK`: the three acceptance conditions of a candidate (rule R55). -/
def acceptedExpr : Expr := .and (.field .prime) (.and (.field .c3m4) (.field .lenk))

/-- `ISPRIME3 ok, n`. -/
def isPrime3Lines (ok : String) (n : Expr) : List Line :=
  [.wr .opa n, .cmd .mrtest, .wait, .assign ok acceptedExpr]

/-- `WIPE`. -/
def wipeLines : List Line := [.cmd .clr, .wait]

/-- The loop of Listing 44-A (rule R95): draw and test until a candidate is accepted. -/
def genPrimeLoop (k : Nat) (n loop : String) : List Line :=
  [.label loop, .draw n k, .wr .opa (.var n), .cmd .mrtest, .wait,
   .ifGoto (.field .err) "fatal", .ifGoto (.not acceptedExpr) loop]

/-- The end of a host procedure: it returns, or it fails fatally where Listing 44-A goes to `fatal`. -/
def procedureEnd : List Line := [.ret, .label "fatal", .fatal]

/-- Listing 44-A (rule R95): a K-bit prime that is 3 mod 4 in `n`; an error of a command or of a draw is fatal. -/
def genPrimeLines (k : Nat) (n : String) : List Line := genPrimeLoop k n "loop" ++ procedureEnd

/-- KeyGenerator (rule R96): two independent primes and their product. Whether `q` is drawn again when it equals `p` is a
parameter of the procedure (93_implementation_defined U15: the default is no check). -/
def keyGenLines (k : Nat) (n p q : String) (distinct : Bool) : List Line :=
  genPrimeLoop k p "genp" ++ genPrimeLoop k q "genq" ++
  (if distinct then [.ifGoto (.eq (.var p) (.var q)) "genq"] else []) ++
  [.assign n (.mul (.var p) (.var q))] ++ procedureEnd

/-- The unsigned big-endian integer of a message (rule R99). -/
def messageInt (bytes : List (BitVec 8)) : Nat := bytes.foldl (fun m b => 256 * m + b.toNat) 0

end Sys2Proof.Machine
end

