-- ==== Sys2Proof/Safety.lean ====
section
/-! DEFINITION. What counts as a safe state and a safe run: the invariants of the block (10_state rules R11 to R13, R18,
R19; 60_exceptions rules R103, R110, R114), the accesses the port can carry, and runs. -/

namespace Sys2Proof.Machine

/-- Every register fits its width (10_state rules R11 to R13): `OPA`, `OPB`, `RES0` to `RES3` W bits, `OPP`, `OPQ` K. -/
def RegistersFit (s : State) : Prop := ∀ r : Reg, getReg s r < 2 ^ regWidth s.params r

/-- `STATUS` is one of the values the rules allow: `BUSY` and `DONE` never both, `ERRCODE ≠ 0` exactly when `ERR` (rule
R18), no reserved code (rule R103); an error is a completed one that left results and flags 0 (rule R110); no flag before
the first completion or while busy (rule R19); no completion sets flags of both `XGCD` and `MRTEST` (rule R20). -/
structure StatusCoherent (s : State) : Prop where
  busy_not_done : ¬ (s.status.busy = true ∧ s.status.done = true)
  errcode_iff_err : s.status.errcode ≠ 0#4 ↔ s.status.err = true
  errcode_defined : s.status.errcode.toNat ≤ 3
  err_done : s.status.err = true → s.status.done = true
  no_flag_unless_done : s.status.done = false → s.status.flags = Flags.none
  err_no_flag : s.status.err = true → s.status.flags = Flags.none
  err_no_result : s.status.err = true → s.res0 = 0 ∧ s.res1 = 0 ∧ s.res2 = 0 ∧ s.res3 = 0
  one_command_flags : s.status.flags.sx = true ∨ s.status.flags.sy = true →
    s.status.flags.prime = false ∧ s.status.flags.c3m4 = false ∧ s.status.flags.lenk = false

/-- The block's state is the reset state (10_state rules R24 to R26). -/
structure AtReset (s : State) : Prop where
  registers : ∀ r : Reg, getReg s r = 0
  status : s.status = Status.zero
  command : s.command = none
  rnd : s.rnd = .idle
  round : s.round = 0

/-- The command in flight agrees with `BUSY` (rule R19), and the port to `rnd` and the round count are used only by an
`MRTEST` on a candidate that needs draws (rule R114), within its rounds, with a W-bit answer; while reset is asserted the
state is the reset state (70_reset_and_hazards rule R118). -/
structure FlightCoherent (s : State) : Prop where
  busy_iff_command : s.status.busy = true ↔ s.command ≠ none
  draws_only_in_mrtest : s.rnd ≠ .idle ∨ s.round ≠ 0 →
    s.command = some (encode .mrtest) ∧ mrWithoutDraws s.opa = none
  round_bound : s.round < s.params.rounds
  answer_fits : ∀ w, s.rnd = .answered (.ok w) → w < 2 ^ s.params.w
  reset_held : s.inReset = true → AtReset s

/-- The invariant of the block. -/
structure Inv (s : State) : Prop where
  fit : RegistersFit s
  status : StatusCoherent s
  flight : FlightCoherent s

/-- The access can be carried by the port: one aligned word inside the map (20_memory rules R30, R31, R33). -/
def accessInMap (p : Params) (addr size : Nat) : Bool :=
  oneAlignedWord addr size && decide (addr / 4 < mapWords p)

/-- The turn is one the block can see. -/
def turnOk (p : Params) : Turn → Bool
  | .block => true
  | .read addr size => accessInMap p addr size
  | .write addr size _ => accessInMap p addr size
  | .answer _ _ => true
  | .reset => true
  | .release => true

/-- The next turn is the block's: scheduled, or nothing is scheduled. -/
def BlockMoves (s : State) : Prop := s.turns = [] ∨ s.turns.head? = some .block

/-- The four result registers, in order. -/
def results (s : State) : List Nat := [s.res0, s.res1, s.res2, s.res3]

/-- The schedule in which `rnd` answers the requests numbered from `first` on, one by one, and the block uses each answer
before the next one comes. -/
def answerTurns : Nat → List Answer → List Turn
  | _, [] => []
  | first, a :: as => .answer first a :: .block :: answerTurns (first + 1) as

/-- `t` is reached from `s` in some number of steps. -/
inductive Reaches : State → State → Prop where
  | here (s : State) : Reaches s s
  | step (s t u : State) : Reaches s t → Machine.step t = .next u → Reaches s u

/-- A run of `n` steps, stopping at the first stop: `Host.Core.run` of this machine. -/
def runSteps : Nat → State → Host.Outcome State Fault Refusal
  | 0, s => .next s
  | n + 1, s =>
    match step s with
    | .next t => runSteps n t
    | .fault r => .fault r
    | .refused r => .refused r

/-- A safe run: `n` steps that neither fault nor refuse. -/
def SafeRun (s : State) (n : Nat) : Prop := ∃ t, runSteps n s = .next t

end Sys2Proof.Machine
end

