-- ==== Sys2Proof/Certificates/Slice0/Obligations.lean ====
section
/-! DEFINITION. The statements for the provers. Each docstring names the rule of spec/ it comes from. -/

open Sys2Proof Sys2Proof.Machine

/-! ### Encoding -/

/-- 30_encoding R46: a word selects a command exactly when all 32 bits equal the table's word. -/
def Obligations.CommandWordsDecodeExactly : Prop :=
  ∀ w : Word,
    (decode w = .ok .modsqr ↔ w = 0x00000001#32) ∧
    (decode w = .ok .sqrtcrt ↔ w = 0x00000002#32) ∧
    (decode w = .ok .xgcd ↔ w = 0x00000003#32) ∧
    (decode w = .ok .mrtest ↔ w = 0x00000004#32) ∧
    (decode w = .ok .clr ↔ w = 0x00000005#32)

/-- 30_encoding R46, R45: encoding then decoding gives the instruction back. -/
def Obligations.DecodeOfEncode : Prop :=
  ∀ i : Instr, i.wellFormed = true → decode (encode i) = .ok i

/-- Sanity: words written out from Tables 30-A and 30-B. -/
def Obligations.TableWordsDecode : Prop :=
  decode 0b00000000000000000000000000000001#32 = .ok .modsqr ∧
  decode 0b00000000000000000000000000000010#32 = .ok .sqrtcrt ∧
  decode 0b00000000000000000000000000000011#32 = .ok .xgcd ∧
  decode 0b00000000000000000000000000000100#32 = .ok .mrtest ∧
  decode 0b00000000000000000000000000000101#32 = .ok .clr ∧
  decode 0x00000101#32 = .error (.reservedBits 1#24) ∧
  decode 0x00000006#32 = .error (.opcode 6#8)

/-- 30_encoding R48 and 60_exceptions R106: an illegal word is accepted at issue and completes with `ILLEGAL_COMMAND`;
results and flags are 0, operands unchanged. That the completion is the very next turn of a schedule is the model's
choice (notes/assumptions 2). -/
def Obligations.IllegalWordCompletesWithError : Prop :=
  ∀ (s : State) (w : Word) (rest : List Turn),
    w ≠ 0x00000001#32 → w ≠ 0x00000002#32 → w ≠ 0x00000003#32 → w ≠ 0x00000004#32 → w ≠ 0x00000005#32 →
    s.status.busy = false → s.inReset = false → s.turns = .write 0 4 w :: .block :: rest →
    runSteps 2 s =
      .next { s with res0 := 0, res1 := 0, res2 := 0, res3 := 0, status := errorStatus .illegalCommand,
                     command := none, rnd := .idle, round := 0, turns := rest }

/-! ### The step -/

/-- A step runs the decoded command (the schedule is the model's, notes/assumptions 2): the latched word decodes to
`i`, and the block's turn (scheduled, or nothing is scheduled) is `exec i` on the state with that turn struck off. -/
def Obligations.StepRunsDecodedCommand : Prop :=
  ∀ (s : State) (w : Word) (i : Instr), i.wellFormed = true → s.command = some w → decode w = .ok i →
    (∀ rest, s.turns = .block :: rest → step s = exec i { s with turns := rest }) ∧
    (s.turns = [] → step s = exec i s)

/-- 10_state R16 (that an idle turn is a step is notes/assumptions 10): with no command in flight the block's turn
changes nothing: it is idle until the next write. -/
def Obligations.IdleBlockChangesNothing : Prop :=
  ∀ s : State, s.command = none →
    (∀ rest, s.turns = .block :: rest → step s = .next { s with turns := rest }) ∧
    (s.turns = [] → step s = .next s)

/-- 10_state R17 and R19: `CMD` is a write-only trigger. A write while idle issues, `STATUS <- 1`; a write while busy
is ignored, and so is one while reset is asserted (70_reset_and_hazards R118, notes/assumptions 15); a read returns 0;
it stores nothing. That issue latches the whole word, where R19 latches the opcode, is notes/assumptions 3. -/
def Obligations.CmdRegisterIsATrigger : Prop :=
  ∀ (s : State) (v : Word) (rest : List Turn),
    (s.turns = .write 0 4 v :: rest → s.status.busy = false → s.inReset = false →
      step s = .next { s with status := busyStatus, command := some v, rnd := .idle, round := 0, turns := rest }) ∧
    (s.turns = .write 0 4 v :: rest → s.status.busy = true ∨ s.inReset = true →
      step s = .next { s with turns := rest }) ∧
    (s.turns = .read 0 4 :: rest → step s = .next { s with turns := rest, replies := 0#32 :: s.replies })

/-- 20_memory R33, R31 and U8 (the refusal is the model's form of it, notes/assumptions 9): a step stops exactly when
its turn is a host access that is not one aligned word inside the map, and it stops by that name. -/
def Obligations.StepStopsOnlyOnBadAccess : Prop :=
  ∀ s : State,
    ((∃ t, step s = .next t) ↔ ∀ t, s.turns.head? = some t → turnOk s.params t = true) ∧
    (∀ r, step s = .refused r → r = .notOneAlignedWord ∨ r = .beyondMap)

/-! ### MODSQR -/

/-- 41_modular_squarer R66, with the whole frame. -/
def Obligations.ModsqrSquaresModuloN : Prop :=
  ∀ s : State, 1 ≤ s.opb →
    exec .modsqr s =
      .next { s with res0 := s.opa * s.opa % s.opb, res1 := 0, res2 := 0, res3 := 0,
                     status := doneStatus Flags.none, command := none, rnd := .idle, round := 0 } ∧
    s.opa * s.opa % s.opb < s.opb ∧ (RegistersFit s → s.opb ≤ 2 ^ s.params.w - 1)

/-- 41_modular_squarer R68: `N = 0` is `INVALID_MODULUS`; `N = 1` is no error and gives 0. -/
def Obligations.ModsqrZeroModulusIsInvalid : Prop :=
  ∀ s : State,
    (s.opb = 0 →
      exec .modsqr s =
        .next { s with res0 := 0, res1 := 0, res2 := 0, res3 := 0, status := errorStatus .invalidModulus,
                       command := none, rnd := .idle, round := 0 }) ∧
    (s.opb = 1 → ∃ t, exec .modsqr s = .next t ∧ t.status.err = false ∧ t.res0 = 0)

/-- 41_modular_squarer R67: `m ≥ N` wraps silently; the result is `(m mod N)² mod N`, that of `m mod N`, with no error
and no flag. -/
def Obligations.ModsqrWrapsSilently : Prop :=
  ∀ s : State, 1 ≤ s.opb →
    ∃ t t', exec .modsqr s = .next t ∧ exec .modsqr { s with opa := s.opa % s.opb } = .next t' ∧
      t.res0 = s.opa * s.opa % s.opb ∧ t.res0 = (s.opa % s.opb) * (s.opa % s.opb) % s.opb ∧
      t.res0 = t'.res0 ∧ t.status = t'.status ∧ t.status = doneStatus Flags.none

/-- 41_modular_squarer R70 (derived, by the spec's mark): `m = 0`, `m = 1`, `m = N` and `m = N − 1`; `m` and `N − m`
give the same ciphertext. -/
def Obligations.ModsqrCornerCases : Prop :=
  ∀ s t : State, 1 ≤ s.opb → exec .modsqr s = .next t →
    (s.opa = 0 → t.res0 = 0) ∧ (s.opa = 1 → t.res0 = 1 % s.opb) ∧ (s.opa = s.opb → t.res0 = 0) ∧
    (2 ≤ s.opb → s.opa = s.opb - 1 → t.res0 = 1) ∧
    (s.opa ≤ s.opb → ∃ t', exec .modsqr { s with opa := s.opb - s.opa } = .next t' ∧ t'.res0 = t.res0)

/-! ### SQRTCRT -/

/-- 42_sqrt_crt R76, R77 (with R74 and R75 inside): the four candidates in their registers, with the whole frame. -/
def Obligations.SqrtcrtWritesFourCandidates : Prop :=
  ∀ (s : State) (g r t : Nat) (a b : Int), s.opp % 4 = 3 → s.opq % 4 = 3 →
    egcd s.opp s.opq = (g, a, b) →
    r = s.opa ^ ((s.opp + 1) / 4) % s.opp → t = s.opa ^ ((s.opq + 1) / 4) % s.opq →
    ∃ m1 m2 m3 m4 : Nat,
      exec .sqrtcrt s =
        .next { s with res0 := m1, res1 := m2, res2 := m3, res3 := m4, status := doneStatus Flags.none,
                       command := none, rnd := .idle, round := 0 } ∧
      (m1 : Int) = (a * s.opp * t + b * s.opq * r) % ((s.opp * s.opq : Nat) : Int) ∧
      (m2 : Int) = (a * s.opp * t + b * s.opq * (s.opp - r)) % ((s.opp * s.opq : Nat) : Int) ∧
      (m3 : Int) = (a * s.opp * (s.opq - t) + b * s.opq * r) % ((s.opp * s.opq : Nat) : Int) ∧
      (m4 : Int) = (a * s.opp * (s.opq - t) + b * s.opq * (s.opp - r)) % ((s.opp * s.opq : Nat) : Int) ∧
      m1 < s.opp * s.opq ∧ m2 < s.opp * s.opq ∧ m3 < s.opp * s.opq ∧ m4 < s.opp * s.opq ∧
      r < s.opp ∧ t < s.opq

/-- 42_sqrt_crt R73: the operand check, and what it leaves. -/
def Obligations.SqrtcrtChecksFactorsModFour : Prop :=
  ∀ s : State,
    (s.opp % 4 ≠ 3 ∨ s.opq % 4 ≠ 3 →
      exec .sqrtcrt s =
        .next { s with res0 := 0, res1 := 0, res2 := 0, res3 := 0, status := errorStatus .invalidModulus,
                       command := none, rnd := .idle, round := 0 }) ∧
    (s.opp = 0 ∨ s.opq = 0 → s.opp % 4 ≠ 3 ∨ s.opq % 4 ≠ 3) ∧
    (s.opp % 4 = 3 → s.opq % 4 = 3 → 3 ≤ s.opp ∧ 3 ≤ s.opq ∧ 9 ≤ s.opp * s.opq)

/-- 42_sqrt_crt R78 (a), square-root closure: for distinct primes 3 mod 4 and `c` a square modulo both, every
candidate squares to `c` modulo `N`. -/
def Obligations.SqrtcrtCandidatesAreSquareRoots : Prop :=
  ∀ s : State, s.opp.Prime → s.opq.Prime → s.opp ≠ s.opq → s.opp % 4 = 3 → s.opq % 4 = 3 →
    (∃ y, y * y % s.opp = s.opa % s.opp) → (∃ z, z * z % s.opq = s.opa % s.opq) →
    ∃ t, exec .sqrtcrt s = .next t ∧ t.status = doneStatus Flags.none ∧
      ∀ x ∈ results t, x * x % (s.opp * s.opq) = s.opa % (s.opp * s.opq)

/-- 42_sqrt_crt R78 (b), the round trip: what `MODSQR` encrypts under `N = p·q`, `SQRTCRT` finds again among its four
candidates, for every plaintext `m < N`. -/
def Obligations.DecryptOfEncryptFindsPlaintext : Prop :=
  ∀ s s' : State, s'.opp.Prime → s'.opq.Prime → s'.opp ≠ s'.opq → s'.opp % 4 = 3 → s'.opq % 4 = 3 →
    s.opb = s'.opp * s'.opq → s.opa < s.opb →
    ∃ t, exec .modsqr s = .next t ∧ t.status = doneStatus Flags.none ∧
      (s'.opa = t.res0 → ∃ t', exec .sqrtcrt s' = .next t' ∧ t'.status = doneStatus Flags.none ∧ s.opa ∈ results t')

/-- 42_sqrt_crt R78 (c) (derived, by the spec's mark): the candidates are `(±r, ±s)` modulo `(p, q)`, and they come in
pairs that sum to `N`. -/
def Obligations.SqrtcrtCandidateResidues : Prop :=
  ∀ (s t : State) (r u : Nat), s.opp.Prime → s.opq.Prime → s.opp ≠ s.opq → s.opp % 4 = 3 → s.opq % 4 = 3 →
    r = s.opa ^ ((s.opp + 1) / 4) % s.opp → u = s.opa ^ ((s.opq + 1) / 4) % s.opq →
    exec .sqrtcrt s = .next t →
    t.res0 % s.opp = r ∧ t.res0 % s.opq = u ∧
    t.res1 % s.opp = (s.opp - r) % s.opp ∧ t.res1 % s.opq = u ∧
    t.res2 % s.opp = r ∧ t.res2 % s.opq = (s.opq - u) % s.opq ∧
    t.res3 % s.opp = (s.opp - r) % s.opp ∧ t.res3 % s.opq = (s.opq - u) % s.opq ∧
    t.res3 = (s.opp * s.opq - t.res0) % (s.opp * s.opq) ∧ t.res2 = (s.opp * s.opq - t.res1) % (s.opp * s.opq)

/-- 42_sqrt_crt R79 (the square roots of `−c` are general knowledge, by the spec's mark): a `c` that is no square
modulo `p` is not detected; the command completes without error or flag, no candidate squares to `c` modulo `N`, and
the candidates are square roots of `−c` modulo `p`. -/
def Obligations.SqrtcrtNonResidueIsNotDetected : Prop :=
  ∀ s : State, s.opp.Prime → s.opq.Prime → s.opp ≠ s.opq → s.opp % 4 = 3 → s.opq % 4 = 3 →
    (¬ ∃ y, y * y % s.opp = s.opa % s.opp) →
    ∃ t, exec .sqrtcrt s = .next t ∧ t.status = doneStatus Flags.none ∧
      ∀ x ∈ results t, x * x % (s.opp * s.opq) ≠ s.opa % (s.opp * s.opq) ∧ (x * x + s.opa) % s.opp = 0

/-- 42_sqrt_crt R82 (derived, by the spec's mark): for coprime factors the results do not depend on the Bézout pair,
depend on `c` only modulo `N`, and swapping the factors exchanges `m2` and `m3`. -/
def Obligations.SqrtcrtIndependentOfBezoutPair : Prop :=
  ∀ (s t : State) (a b : Int) (r u : Nat), s.opp % 4 = 3 → s.opq % 4 = 3 → a * s.opp + b * s.opq = 1 →
    r = s.opa ^ ((s.opp + 1) / 4) % s.opp → u = s.opa ^ ((s.opq + 1) / 4) % s.opq →
    exec .sqrtcrt s = .next t →
    (t.res0 : Int) = (a * s.opp * u + b * s.opq * r) % ((s.opp * s.opq : Nat) : Int) ∧
    (t.res1 : Int) = (a * s.opp * u + b * s.opq * (s.opp - r)) % ((s.opp * s.opq : Nat) : Int) ∧
    (t.res2 : Int) = (a * s.opp * (s.opq - u) + b * s.opq * r) % ((s.opp * s.opq : Nat) : Int) ∧
    (t.res3 : Int) = (a * s.opp * (s.opq - u) + b * s.opq * (s.opp - r)) % ((s.opp * s.opq : Nat) : Int) ∧
    (∃ t', exec .sqrtcrt { s with opa := s.opa % (s.opp * s.opq) } = .next t' ∧ results t' = results t) ∧
    (∃ t', exec .sqrtcrt { s with opp := s.opq, opq := s.opp } = .next t' ∧
      results t' = [t.res0, t.res2, t.res1, t.res3])

/-- 42_sqrt_crt R83 (derived, by the spec's mark): coinciding candidates. -/
def Obligations.SqrtcrtCoincidingCandidates : Prop :=
  ∀ s t : State, s.opp % 4 = 3 → s.opq % 4 = 3 → exec .sqrtcrt s = .next t →
    (s.opa % (s.opp * s.opq) = 0 → results t = [0, 0, 0, 0]) ∧
    (s.opa % s.opp = 0 → t.res0 = t.res1 ∧ t.res2 = t.res3) ∧
    (s.opa % s.opq = 0 → t.res0 = t.res2 ∧ t.res1 = t.res3) ∧
    (s.opp.Prime → s.opq.Prime → s.opp ≠ s.opq → s.opa % s.opp ≠ 0 → s.opa % s.opq ≠ 0 → (results t).Nodup) ∧
    (Nat.Coprime s.opp s.opq → s.opa = 1 → t.res0 = 1 ∧ t.res3 = s.opp * s.opq - 1)

/-! ### XGCD -/

/-- 43_extended_euclid R88, and R90, which the spec marks as derived: sign and magnitude, never an error, with the
whole frame. -/
def Obligations.XgcdWritesSignAndMagnitude : Prop :=
  ∀ (s : State) (g : Nat) (x y : Int), egcd s.opa s.opb = (g, x, y) →
    exec .xgcd s =
      .next { s with res0 := x.natAbs, res1 := y.natAbs, res2 := g, res3 := 0,
                     status := doneStatus ⟨decide (x < 0), decide (y < 0), false, false, false⟩,
                     command := none, rnd := .idle, round := 0 }

/-- 43_extended_euclid R86: `u·x + v·y = g = gcd(u, v)`, with `x` and `y` as the host rebuilds them. -/
def Obligations.XgcdBezoutIdentity : Prop :=
  ∀ s : State, ∃ t, exec .xgcd s = .next t ∧
    (s.opa : Int) * (if t.status.flags.sx then - (t.res0 : Int) else t.res0)
      + (s.opb : Int) * (if t.status.flags.sy then - (t.res1 : Int) else t.res1) = t.res2 ∧
    t.res2 = Nat.gcd s.opa s.opb

/-- 43_extended_euclid R87 (derived, by the spec's mark): zero operands. -/
def Obligations.XgcdZeroOperands : Prop :=
  (∀ u : Nat, egcd u 0 = (u, 1, 0)) ∧ egcd 0 0 = (0, 1, 0) ∧ (∀ v : Nat, 0 < v → egcd 0 v = (v, 0, 1)) ∧
  (∀ s : State, s.opa = 0 ∨ s.opb = 0 → ∃ t, exec .xgcd s = .next t ∧
    s.opa * t.res0 + s.opb * t.res1 = t.res2 ∧ t.status = doneStatus Flags.none)

/-- 43_extended_euclid R89 (derived and general knowledge, by the spec's marks): the coefficients are bounded, so the
results fit, and for coprime operands of at least 2 exactly one coefficient is negative. -/
def Obligations.XgcdCoefficientsAreBounded : Prop :=
  ∀ (u v g : Nat) (x y : Int), egcd u v = (g, x, y) →
    (1 ≤ u → 1 ≤ v →
      x.natAbs ≤ v / g ∧ y.natAbs ≤ u / g ∧
      x.natAbs ≤ max 1 (v / (2 * g)) ∧ y.natAbs ≤ max 1 (u / (2 * g))) ∧
    (u = 0 ∨ v = 0 → (x = 0 ∨ x = 1) ∧ (y = 0 ∨ y = 1)) ∧
    g ≤ max u v ∧
    (∀ p : Params, u < 2 ^ p.w → v < 2 ^ p.w → x.natAbs < 2 ^ p.w ∧ y.natAbs < 2 ^ p.w ∧ g < 2 ^ p.w) ∧
    (2 ≤ u → 2 ≤ v → Nat.Coprime u v → (x < 0 ∧ 0 < y) ∨ (0 < x ∧ y < 0))

/-- 43_extended_euclid R91 (derived, by the spec's mark): equal operands, divisors, and the swap symmetry. -/
def Obligations.XgcdCornerCases : Prop :=
  ∀ u v : Nat,
    (0 < u → egcd u u = (u, 0, 1)) ∧
    (0 < v → v ∣ u → egcd u v = (v, 0, 1)) ∧
    (u ∣ v → u < v → 0 < u → egcd u v = (u, 1, 0)) ∧
    (u ≠ v → egcd v u = ((egcd u v).1, (egcd u v).2.2, (egcd u v).2.1))

/-! ### MRTEST -/

/-- 40_primality_test R58, R60: for `n < 5` and for even `n` the command completes at once, with no request, whatever
the port to `rnd` holds; `PRIME` is 1 exactly for 2 and 3. -/
def Obligations.MrtestSmallAndEvenNeedNoDraw : Prop :=
  ∀ s : State, s.opa < 5 ∨ s.opa % 2 = 0 →
    exec .mrtest s =
      .next { s with res0 := 0, res1 := 0, res2 := 0, res3 := 0,
                     status := doneStatus ⟨false, false, decide (s.opa = 2 ∨ s.opa = 3), decide (s.opa % 4 = 3),
                       decide (2 ^ (s.params.k - 1) ≤ s.opa ∧ s.opa < 2 ^ s.params.k)⟩,
                     command := none, rnd := .idle, round := 0 }

/-- 40_primality_test R60, 60_exceptions R114, R115, in steps of the model's grain (notes/assumptions 4): an odd `n ≥
5` first requests one draw, and then waits for it. -/
def Obligations.MrtestRequestsThenWaits : Prop :=
  ∀ s : State, 5 ≤ s.opa → s.opa % 2 = 1 →
    (s.rnd = .idle → exec .mrtest s = .next { s with rnd := .waiting, requests := s.requests + 1 }) ∧
    (s.rnd = .waiting → exec .mrtest s = .next s)

/-- 40_primality_test R58, R59, in steps of the model's grain (notes/assumptions 4): one round. With `n − 1 = 2^k·d`,
`d` odd, and base `a = 2 + (w mod (n − 3))`, the round passes when `a^d mod n` is 1 or some `a^(2^j·d) mod n`, `j <
k`, is `n − 1`. A failed round completes with `PRIME = 0`, the last passed one with `PRIME = 1`, any other passed one
requests the next draw. -/
def Obligations.MrtestRoundFollowsListing : Prop :=
  ∀ (s : State) (w k d a : Nat), 5 ≤ s.opa → s.opa % 2 = 1 → s.rnd = .answered (.ok w) →
    s.opa - 1 = 2 ^ k * d → d % 2 = 1 → a = 2 + w % (s.opa - 3) →
    (¬ (a ^ d % s.opa = 1 ∨ ∃ j, j < k ∧ a ^ (2 ^ j * d) % s.opa = s.opa - 1) →
      exec .mrtest s =
        .next { s with res0 := 0, res1 := 0, res2 := 0, res3 := 0,
                       status := doneStatus ⟨false, false, false, decide (s.opa % 4 = 3),
                         decide (2 ^ (s.params.k - 1) ≤ s.opa ∧ s.opa < 2 ^ s.params.k)⟩,
                       command := none, rnd := .idle, round := 0 }) ∧
    (a ^ d % s.opa = 1 ∨ (∃ j, j < k ∧ a ^ (2 ^ j * d) % s.opa = s.opa - 1) →
      (s.params.rounds ≤ s.round + 1 →
        exec .mrtest s =
          .next { s with res0 := 0, res1 := 0, res2 := 0, res3 := 0,
                         status := doneStatus ⟨false, false, true, decide (s.opa % 4 = 3),
                           decide (2 ^ (s.params.k - 1) ≤ s.opa ∧ s.opa < 2 ^ s.params.k)⟩,
                         command := none, rnd := .idle, round := 0 }) ∧
      (s.round + 1 < s.params.rounds →
        exec .mrtest s =
          .next { s with rnd := .waiting, round := s.round + 1, requests := s.requests + 1 }))

/-- 40_primality_test R61: a failed draw ends the command with `RANDOM_SOURCE_FAILURE`; no flag is reported. -/
def Obligations.MrtestFailedDrawIsAnError : Prop :=
  ∀ s : State, 5 ≤ s.opa → s.opa % 2 = 1 → s.rnd = .answered .fail →
    exec .mrtest s =
      .next { s with res0 := 0, res1 := 0, res2 := 0, res3 := 0, status := errorStatus .randomSourceFailure,
                     command := none, rnd := .idle, round := 0 }

/-- 40_primality_test R56: whenever an `MRTEST` completes, `C3M4` and `LENK` are those of `n`, whatever the draws, and
0 after an error. -/
def Obligations.MrtestCongruenceAndLengthFlags : Prop :=
  ∀ s t : State, s.command ≠ none → exec .mrtest s = .next t → t.command = none →
    (t.status.err = false →
      (t.status.flags.c3m4 = true ↔ s.opa % 4 = 3) ∧
      (t.status.flags.lenk = true ↔ 2 ^ (s.params.k - 1) ≤ s.opa ∧ s.opa < 2 ^ s.params.k)) ∧
    (t.status.err = true → t.status.flags.c3m4 = false ∧ t.status.flags.lenk = false)

/-- 40_primality_test R62 (a) (general knowledge, by the spec's mark): no false negative. For a prime `n`, every
`MRTEST` that completes without error reports `PRIME = 1`, whatever the draws, and the last answered round does
complete. -/
def Obligations.MrtestNeverRejectsAPrime : Prop :=
  ∀ s : State, s.opa.Prime → s.command ≠ none →
    (∀ t, exec .mrtest s = .next t → t.command = none → t.status.err = false → t.status.flags.prime = true) ∧
    (∀ w, s.rnd = .answered (.ok w) → s.params.rounds ≤ s.round + 1 →
      ∃ t, exec .mrtest s = .next t ∧ t.command = none ∧ t.status.err = false ∧ t.status.flags.prime = true)

/-- Listing 40-A (40_primality_test R58, R60, R61): the steps of an `MRTEST` (their grain and schedule are the
model's, notes/assumptions 2, 4, 5) refine it. From issue, with `rnd` giving the answers `as` one by one: when the
listing ends using exactly these answers, the machine ends in the listing's verdict or error having made exactly one
request per answer; when they run out first, the command is still in flight, waiting. -/
def Obligations.MrtestStepsRefineListing : Prop :=
  ∀ (s : State) (as : List Answer), s.command = some (encode .mrtest) → s.rnd = .idle → s.round = 0 →
    s.turns = .block :: answerTurns (s.requests + 1) as → (∀ w, Answer.ok w ∈ as → w < 2 ^ s.params.w) →
    (∀ r, listing40A s.params.rounds s.opa as = some (r, []) →
      runSteps (1 + 2 * as.length) s =
        .next (mrtestEnd r { s with turns := [], requests := s.requests + as.length })) ∧
    (listing40A s.params.rounds s.opa as = none →
      runSteps (1 + 2 * as.length) s =
        .next { s with turns := [], rnd := .waiting, round := as.length, requests := s.requests + as.length + 1 })

/-- 70_reset_and_hazards R125, on the model's schedule (notes/assumptions 2): with one answer per round an `MRTEST`
has completed after `MR_ROUNDS` of them. -/
def Obligations.MrtestCompletesWithinItsRounds : Prop :=
  ∀ (s : State) (as : List Answer), s.command = some (encode .mrtest) → s.rnd = .idle → s.round = 0 →
    s.turns = .block :: answerTurns (s.requests + 1) as → as.length = s.params.rounds →
    ∃ t, runSteps (1 + 2 * as.length) s = .next t ∧ t.command = none ∧
      t.status.busy = false ∧ t.status.done = true

/-- 60_exceptions R115: without an answer the `MRTEST` hangs (as steps that change nothing, notes/assumptions 10).
Through any turns that are no reset and no answer to its outstanding request, it stays in flight, busy and waiting,
and no data register changes. -/
def Obligations.MrtestHangsWithoutAnAnswer : Prop :=
  ∀ (s : State) (rest : List Turn), s.command = some (encode .mrtest) → s.status.busy = true → s.rnd = .waiting →
    5 ≤ s.opa → s.opa % 2 = 1 → s.turns = rest →
    (∀ t ∈ rest, turnOk s.params t = true ∧ t ≠ .reset ∧ ∀ a, t ≠ .answer s.requests a) →
    ∀ n, ∃ t, runSteps n s = .next t ∧ t.command = s.command ∧ t.status = s.status ∧
      t.rnd = .waiting ∧ t.requests = s.requests ∧ ∀ r, getReg t r = getReg s r

/-! ### CLR -/

/-- 44_control_and_host R92: `CLR` zeroes the eight data registers, with `STATUS = 0x00000002`, and it is the only
command that writes operand registers. -/
def Obligations.ClrWipesAllDataRegisters : Prop :=
  (∀ s : State,
    exec .clr s =
      .next { s with opa := 0, opb := 0, opp := 0, opq := 0, res0 := 0, res1 := 0, res2 := 0, res3 := 0,
                     status := doneStatus Flags.none, command := none, rnd := .idle, round := 0 }) ∧
  statusWord (doneStatus Flags.none) = 0x00000002#32 ∧
  (∀ (i : Instr) (s t : State), i ≠ .clr → exec i s = .next t →
    t.opa = s.opa ∧ t.opb = s.opb ∧ t.opp = s.opp ∧ t.opq = s.opq)

/-! ### Completion, errors and purity -/

/-- 10_state R15: whatever word is in flight, legal or not, its completion writes every result register and flag, zero
where Table 10-A gives the command no value and everywhere after an error; only `CLR` writes operands. -/
def Obligations.CompletionWritesEveryResultAndFlag : Prop :=
  ∀ (s t : State) (w : Word), s.command = some w → BlockMoves s → step s = .next t → t.command = none →
    (w ≠ encode .xgcd → t.status.flags.sx = false ∧ t.status.flags.sy = false) ∧
    (w ≠ encode .mrtest → t.status.flags.prime = false ∧ t.status.flags.c3m4 = false ∧ t.status.flags.lenk = false) ∧
    (w ≠ encode .modsqr → w ≠ encode .sqrtcrt → w ≠ encode .xgcd → results t = [0, 0, 0, 0]) ∧
    (w = encode .modsqr → t.res1 = 0 ∧ t.res2 = 0 ∧ t.res3 = 0) ∧ (w = encode .xgcd → t.res3 = 0) ∧
    (t.status.err = true → results t = [0, 0, 0, 0] ∧ t.status.flags = Flags.none) ∧
    (w ≠ encode .clr → t.opa = s.opa ∧ t.opb = s.opb ∧ t.opp = s.opp ∧ t.opq = s.opq)

/-- 60_exceptions R108 (which the spec marks as derived), Table 60-B: whatever word is in flight, its completion has
each error exactly by its cause, and no other error. -/
def Obligations.CommandErrorsHaveExactlyTheirCauses : Prop :=
  ∀ (s t : State) (w : Word), s.command = some w → BlockMoves s → step s = .next t → t.command = none →
    (t.status.errcode = 3#4 ↔ ∀ i, w ≠ encode i) ∧
    (t.status.errcode = 2#4 ↔
      (w = encode .modsqr ∧ s.opb = 0) ∨ (w = encode .sqrtcrt ∧ (s.opp % 4 ≠ 3 ∨ s.opq % 4 ≠ 3))) ∧
    (t.status.errcode = 1#4 ↔ w = encode .mrtest ∧ 5 ≤ s.opa ∧ s.opa % 2 = 1 ∧ s.rnd = .answered .fail) ∧
    (t.status.err = true ↔ t.status.errcode ≠ 0#4) ∧ t.status.errcode.toNat ≤ 3

/-- 60_exceptions R110: what a command error writes, and nothing else (the schedule moves on by its turn). -/
def Obligations.CommandErrorEntry : Prop :=
  ∀ (s t : State) (w : Word), s.command = some w → BlockMoves s → step s = .next t → t.command = none →
    t.status.err = true →
    ∃ code : BitVec 4,
      t = { s with res0 := 0, res1 := 0, res2 := 0, res3 := 0,
                   status := ⟨false, true, true, code, ⟨false, false, false, false, false⟩⟩,
                   command := none, rnd := .idle, round := 0, turns := s.turns.tail } ∧
      (statusWord t.status).toNat = 6 + 16 * code.toNat ∧ 1 ≤ code.toNat ∧ code.toNat ≤ 3

/-- 10_state R23: what a completion writes is a function of the registers the command reads, of `K` and `MR_ROUNDS`,
and, for `MRTEST`, of the answers of `rnd` (here: the answer in hand and the rounds passed, notes/assumptions 4). -/
def Obligations.CommandsArePure : Prop :=
  ∀ (s s' t t' : State) (w : Word), s.command = some w → s'.command = some w → BlockMoves s → BlockMoves s' →
    s.params = s'.params →
    (w = encode .modsqr ∨ w = encode .xgcd → s.opa = s'.opa ∧ s.opb = s'.opb) →
    (w = encode .sqrtcrt → s.opa = s'.opa ∧ s.opp = s'.opp ∧ s.opq = s'.opq) →
    (w = encode .mrtest → s.opa = s'.opa ∧ s.rnd = s'.rnd ∧ s.round = s'.round) →
    step s = .next t → step s' = .next t' →
    (t.command = none ↔ t'.command = none) ∧
    (t.command = none → results t = results t' ∧ t.status = t'.status)

/-- 10_state R19, 70_reset_and_hazards R125, completion in one turn being the model's (notes/assumptions 2): every
command but `MRTEST`, legal or not, completes at the block's next turn. -/
def Obligations.OtherCommandsCompleteAtOnce : Prop :=
  ∀ (s : State) (w : Word), s.command = some w → w ≠ encode .mrtest → BlockMoves s →
    ∃ t, step s = .next t ∧ t.command = none ∧ t.status.busy = false ∧ t.status.done = true

/-! ### The register space -/

/-- 20_memory R31, Table 20-A, for every instance. -/
def Obligations.RegisterMapFollowsTable : Prop :=
  ∀ (p : Params) (nw nk : Nat), nw = (2 * p.k + 31) / 32 → nk = (p.k + 31) / 32 →
    locate p 0 = some .cmd ∧ locate p 1 = some .status ∧ locate p 2 = some .param ∧ locate p 3 = some .reserved ∧
    (∀ j, j < nw →
      locate p (4 + j) = some (.data .opa j) ∧ locate p (4 + nw + j) = some (.data .opb j) ∧
      locate p (4 + 4 * nw + j) = some (.data .res0 j) ∧ locate p (4 + 5 * nw + j) = some (.data .res1 j) ∧
      locate p (4 + 6 * nw + j) = some (.data .res2 j) ∧ locate p (4 + 7 * nw + j) = some (.data .res3 j) ∧
      (j < nk → locate p (4 + 2 * nw + j) = some (.data .opp j) ∧ locate p (4 + 3 * nw + j) = some (.data .opq j)) ∧
      (nk ≤ j → locate p (4 + 2 * nw + j) = some .reserved ∧ locate p (4 + 3 * nw + j) = some .reserved)) ∧
    (∀ i, locate p i = none ↔ 4 + 8 * nw ≤ i)

/-- 20_memory R34 with R32, while idle: a read returns word `j` of a register bit by bit, 0 for `CMD` and reserved
words, the words of `STATUS` and `PARAM`, and changes nothing else. -/
def Obligations.HostReadReturnsTheWord : Prop :=
  ∀ (s : State) (i : Nat) (rest : List Turn), s.status.busy = false → i < mapWords s.params →
    s.turns = .read (4 * i) 4 :: rest →
    ∃ x : Word, step s = .next { s with turns := rest, replies := x :: s.replies } ∧
      (∀ r j, j < regWords s.params r → i = regFirst s.params r + j →
        ∀ k, k < 32 → x.getLsbD k = (getReg s r).testBit (32 * j + k)) ∧
      (i = 0 ∨ i = 3 → x = 0#32) ∧
      (∀ j, factorWords s.params ≤ j → j < slotWords s.params →
        i = regFirst s.params .opp + j ∨ i = regFirst s.params .opq + j → x = 0#32) ∧
      (i = 1 → x = statusWord s.status) ∧ (i = 2 → x = paramWord s.params)

/-- 20_memory R35 with R32: a write while idle replaces exactly the 32 bits of its word, as far as the register is
wide; word 0 issues; every other word of the map ignores it. That issue latches the whole word is notes/assumptions 3;
while reset is asserted ResetAtAnyTime says what a write does. -/
def Obligations.HostWriteStoresIssuesOrIsIgnored : Prop :=
  ∀ (s : State) (v : Word) (i : Nat) (rest : List Turn), s.status.busy = false → s.inReset = false →
    RegistersFit s → i < mapWords s.params → s.turns = .write (4 * i) 4 v :: rest →
    (∀ r j, r = .opa ∨ r = .opb ∨ r = .opp ∨ r = .opq → j < regWords s.params r → i = regFirst s.params r + j →
      ∃ x : Nat, step s = .next (setReg r x { s with turns := rest }) ∧
        ∀ k, x.testBit k =
          if 32 * j ≤ k ∧ k < 32 * j + 32 ∧ k < regWidth s.params r then v.getLsbD (k - 32 * j)
          else (getReg s r).testBit k) ∧
    (i = 0 → step s =
      .next { s with status := busyStatus, command := some v, rnd := .idle, round := 0, turns := rest }) ∧
    (i = 1 ∨ i = 2 ∨ i = 3 → step s = .next { s with turns := rest }) ∧
    (∀ r j, r = .res0 ∨ r = .res1 ∨ r = .res2 ∨ r = .res3 → j < slotWords s.params → i = regFirst s.params r + j →
      step s = .next { s with turns := rest }) ∧
    (∀ r j, r = .opp ∨ r = .opq → factorWords s.params ≤ j → j < slotWords s.params → i = regFirst s.params r + j →
      step s = .next { s with turns := rest })

/-- 20_memory R42: while busy every write is ignored, `STATUS` and `PARAM` read as themselves, every other word reads
0. -/
def Obligations.BusyWindowDropsWritesAndHidesData : Prop :=
  ∀ (s : State) (i : Nat) (rest : List Turn), s.status.busy = true → i < mapWords s.params →
    (∀ v, s.turns = .write (4 * i) 4 v :: rest → step s = .next { s with turns := rest }) ∧
    (s.turns = .read (4 * i) 4 :: rest →
      step s = .next { s with turns := rest, replies :=
        (if i = 1 then statusWord s.status else if i = 2 then paramWord s.params else 0#32) :: s.replies })

/-- 10_state R21: `PARAM` reads as `K`, `ROUNDS` and `VERSION = 1` in their fields, is `0x01320200` by default, and
ignores writes. -/
def Obligations.ParamIsAReadOnlyConstant : Prop :=
  (∀ (s : State) (v : Word) (rest : List Turn),
    (s.turns = .read 8 4 :: rest →
      ∃ x : Word, step s = .next { s with turns := rest, replies := x :: s.replies } ∧
        (x.extractLsb' 0 16).toNat = s.params.k ∧ (x.extractLsb' 16 8).toNat = s.params.rounds ∧
        x.extractLsb' 24 8 = 0x01#8) ∧
    (s.turns = .write 8 4 v :: rest → step s = .next { s with turns := rest })) ∧
  paramWord Params.default = 0x01320200#32

/-- Table 10-B (10_state R18): where each field of `STATUS` stands; bits 3 and 31:13 read 0. -/
def Obligations.StatusWordLayout : Prop :=
  ∀ st : Status,
    (statusWord st).getLsbD 0 = st.busy ∧ (statusWord st).getLsbD 1 = st.done ∧ (statusWord st).getLsbD 2 = st.err ∧
    (statusWord st).getLsbD 3 = false ∧ (statusWord st).extractLsb' 4 4 = st.errcode ∧
    (statusWord st).getLsbD 8 = st.flags.sx ∧ (statusWord st).getLsbD 9 = st.flags.sy ∧
    (statusWord st).getLsbD 10 = st.flags.prime ∧ (statusWord st).getLsbD 11 = st.flags.c3m4 ∧
    (statusWord st).getLsbD 12 = st.flags.lenk ∧ (statusWord st).extractLsb' 13 19 = 0#19

/-- 30_encoding R52 (derived, by the spec's mark): the constants a host compares `STATUS` against. -/
def Obligations.StatusConstants : Prop :=
  statusWord State.reset.status = 0x00000000#32 ∧ statusWord busyStatus = 0x00000001#32 ∧
  statusWord (doneStatus Flags.none) = 0x00000002#32 ∧
  statusWord (doneStatus ⟨true, false, false, false, false⟩) = 0x00000102#32 ∧
  statusWord (doneStatus ⟨false, true, false, false, false⟩) = 0x00000202#32 ∧
  statusWord (doneStatus ⟨false, false, true, false, false⟩) = 0x00000402#32 ∧
  statusWord (doneStatus ⟨false, false, false, true, false⟩) = 0x00000802#32 ∧
  statusWord (doneStatus ⟨false, false, false, false, true⟩) = 0x00001002#32 ∧
  statusWord (errorStatus .randomSourceFailure) = 0x16#32 ∧ statusWord (errorStatus .invalidModulus) = 0x26#32 ∧
  statusWord (errorStatus .illegalCommand) = 0x36#32

/-- 20_memory R37 (derived, by the spec's mark): a whole-register write, its words in any order, writes the value and
nothing else. -/
def Obligations.RegWriteInAnyOrder : Prop :=
  ∀ (s : State) (r : Reg) (v : Nat) (js : List Nat) (rest : List Turn), regWritable r = true →
    v < 2 ^ regWidth s.params r → js.Perm (List.range (regWords s.params r)) → s.status.busy = false →
    s.inReset = false → s.turns = js.map (wordWriteTurn s.params r v) ++ rest →
    runSteps js.length s = .next (setReg r v { s with turns := rest })

/-- 20_memory R37 (derived, by the spec's mark): a whole-register read returns words that reassemble to the register's
value, and changes nothing. -/
def Obligations.RegReadReassembles : Prop :=
  ∀ (s : State) (r : Reg) (rest : List Turn), RegistersFit s → s.status.busy = false →
    s.turns = regReadTurns s.params r ++ rest →
    ∃ ws : List Word,
      runSteps (regWords s.params r) s =
        .next { s with turns := rest, replies := ws.reverse ++ s.replies } ∧
      ws.length = regWords s.params r ∧ assembleWords ws = getReg s r

/-! ### Whole-machine rules -/

/-- 10_state R13: only the block writes result registers: a step that changes one is a reset, or the block's turn that
completes a command in flight. -/
def Obligations.OnlyTheBlockWritesResults : Prop :=
  ∀ s t : State, step s = .next t → results t ≠ results s →
    s.turns.head? = some .reset ∨
      (BlockMoves s ∧ s.command ≠ none ∧ t.command = none ∧ t.status.done = true)

/-- 70_reset_and_hazards R122: an operand register persists, until the host writes it while idle, `CLR` completes, or
reset. -/
def Obligations.OperandsPersist : Prop :=
  ∀ (s t : State) (r : Reg), regWritable r = true → step s = .next t → getReg t r ≠ getReg s r →
    s.turns.head? = some .reset ∨ (BlockMoves s ∧ s.command = some (encode .clr)) ∨
    (∃ (v : Word) (j : Nat), j < regWords s.params r ∧ s.status.busy = false ∧ s.inReset = false ∧
      s.turns.head? = some (.write (4 * (regFirst s.params r + j)) 4 v))

/-- 70_reset_and_hazards R128 (derived, by the spec's mark): between issue and completion nothing changes but the port
to `rnd`; `STATUS` reads 1 throughout. -/
def Obligations.NothingChangesWhileBusy : Prop :=
  ∀ s t : State, StatusCoherent s → s.status.busy = true → step s = .next t → s.turns.head? ≠ some .reset →
    t.status.busy = true →
    statusWord s.status = 0x00000001#32 ∧ t.status = s.status ∧ t.command = s.command ∧ t.params = s.params ∧
    ∀ r, getReg t r = getReg s r

/-- 60_exceptions R114, 40_primality_test R60, on the model's count of requests (notes/assumptions 5): a step makes at
most one request, only with an `MRTEST` in flight whose earlier request, if any, has been answered; the request is
then outstanding. -/
def Obligations.OneRequestAtATimeAndOnlyInMrtest : Prop :=
  ∀ s t : State, step s = .next t → t.requests ≠ s.requests →
    t.requests = s.requests + 1 ∧ s.rnd ≠ .waiting ∧ t.rnd = .waiting ∧ s.command = some (encode .mrtest) ∧
    t.command = s.command ∧ 5 ≤ s.opa ∧ s.opa % 2 = 1

/-- 60_exceptions R114, with the model's request numbers (notes/assumptions 5): an answer to the outstanding request
reaches the block as it is; 70_reset_and_hazards R119: any other answer is discarded. -/
def Obligations.AnswersReachOnlyTheirRequest : Prop :=
  ∀ (s : State) (k : Nat) (a : Answer) (rest : List Turn), s.turns = .answer k a :: rest →
    (s.rnd = .waiting → k = s.requests → (∀ w, a = .ok w → w < 2 ^ s.params.w) →
      step s = .next { s with rnd := .answered a, turns := rest }) ∧
    (s.rnd ≠ .waiting ∨ k ≠ s.requests → step s = .next { s with turns := rest })

/-! ### Reset and invariants -/

/-- 10_state R24, R25, R26: the reset state, on every instance, and State.reset is the default instance's (the choice
of instance is notes/assumptions 19). -/
def Obligations.ResetState : Prop :=
  (∀ p : Params,
    (∀ r, getReg (State.resetOf p) r = 0) ∧ statusWord (State.resetOf p).status = 0x00000000#32 ∧
    readLoc (State.resetOf p) .param = BitVec.ofNat 32 (p.k + 2 ^ 16 * p.rounds + 2 ^ 24) ∧
    readLoc (State.resetOf p) .cmd = 0#32 ∧
    (State.resetOf p).command = none ∧ (State.resetOf p).rnd = .idle ∧ (State.resetOf p).round = 0) ∧
  State.reset = State.resetOf Params.default

/-- 70_reset_and_hazards R118, R119, assertion and release each being a turn of the model's schedule
(notes/assumptions 15): a reset, at any time, gives the reset state, with a command in flight abandoned and an
outstanding request withdrawn; while it is asserted every step keeps the reset state, whatever the host, `rnd` and the
block do, and only the release ends the assertion; the release changes nothing else. -/
def Obligations.ResetAtAnyTime : Prop :=
  (∀ (s : State) (rest : List Turn), s.turns = .reset :: rest →
    ∃ t, step s = .next t ∧ AtReset t ∧ t.inReset = true ∧
      t.params = s.params ∧ t.turns = rest ∧ t.requests = s.requests ∧ t.replies = s.replies) ∧
  (∀ s t : State, s.inReset = true → AtReset s → step s = .next t →
    AtReset t ∧ (t.inReset = true ∨ s.turns.head? = some .release)) ∧
  (∀ (s : State) (rest : List Turn), s.turns = .release :: rest →
    step s = .next { s with inReset := false, turns := rest })

/-- The invariants hold at reset, on every instance. -/
def Obligations.ResetMeetsTheInvariants : Prop :=
  Inv State.reset ∧ ∀ p : Params, Inv (State.resetOf p)

/-- 10_state R11, R12, R13, 43_extended_euclid R89, 42_sqrt_crt R76: every step keeps every register within its width:
no write of a result loses a bit. -/
def Obligations.StepKeepsRegistersFit : Prop :=
  ∀ s t : State, RegistersFit s → step s = .next t → RegistersFit t

/-- 10_state R18, R19, R20, 60_exceptions R103, R110: every step keeps `STATUS` coherent. -/
def Obligations.StepKeepsStatusCoherent : Prop :=
  ∀ s t : State, StatusCoherent s → step s = .next t → StatusCoherent t

/-- 10_state R19, 60_exceptions R114, 70_reset_and_hazards R118: every step keeps the command in flight, `BUSY` and
the port to `rnd` in agreement, keeps the reset state while reset is asserted, and leaves the parameters alone
(00_scope R4). -/
def Obligations.StepKeepsFlightCoherent : Prop :=
  ∀ s t : State, FlightCoherent s → step s = .next t → FlightCoherent t ∧ t.params = s.params
end

