-- ==== Sys2Proof/Laws/Arith.lean ====
section
/-! SUPPORT. One spec lemma per arithmetic function of Machine/Arith.lean: what it computes, in the words of the spec, so
that no later proof unfolds a loop. -/

namespace Sys2Proof.Machine

/-! ### `modexp` -/

theorem modexpLoop_eq (n : Nat) :
    ∀ (fuel b e acc : Nat), e < 2 ^ fuel → modexpLoop n fuel b e acc % n = acc * b ^ e % n := by
  intro fuel
  induction fuel with
  | zero =>
    intro b e acc he
    obtain rfl : e = 0 := by simpa using he
    simp [modexpLoop]
  | succ fuel ih =>
    intro b e acc he
    unfold modexpLoop
    split
    · next h => subst h; simp
    · have hlt : e / 2 < 2 ^ fuel := by rw [pow_succ] at he; omega
      rw [ih _ _ _ hlt]
      have hsq : (b * b % n) ^ (e / 2) ≡ b ^ (2 * (e / 2)) [MOD n] := by
        rw [pow_mul, sq]; exact (Nat.mod_modEq _ _).pow _
      split
      · next hodd =>
        have : b ^ e = b * b ^ (2 * (e / 2)) := by rw [← pow_succ']; congr 1; omega
        rw [this, ← mul_assoc]
        exact (Nat.mod_modEq _ _).mul hsq
      · next heven =>
        have : b ^ e = b ^ (2 * (e / 2)) := by congr 1; omega
        rw [this]
        exact (Nat.ModEq.refl acc).mul hsq

theorem modexpLoop_lt (n : Nat) (hn : 0 < n) :
    ∀ (fuel b e acc : Nat), acc < n → modexpLoop n fuel b e acc < n := by
  intro fuel
  induction fuel with
  | zero => intro b e acc h; exact h
  | succ fuel ih =>
    intro b e acc h
    unfold modexpLoop
    split
    · exact h
    · apply ih; split
      · exact Nat.mod_lt _ hn
      · exact h

/-- `modexp(b, e, n)` is `b^e mod n` (00_scope rule R8). -/
theorem modexp_eq (b e n : Nat) (hn : 0 < n) : modexp b e n = b ^ e % n := by
  have hlt : modexp b e n < n := modexpLoop_lt n hn _ _ _ _ (Nat.mod_lt _ hn)
  rw [← Nat.mod_eq_of_lt hlt]
  unfold modexp
  rw [modexpLoop_eq n _ _ _ _ Nat.lt_log2_self]
  have h : 1 % n * (b % n) ^ e ≡ 1 * b ^ e [MOD n] := (Nat.mod_modEq _ _).mul ((Nat.mod_modEq _ _).pow _)
  rw [one_mul] at h
  exact h

/-! ### `splitTwos` -/

theorem splitTwos_spec :
    ∀ (fuel m : Nat), 0 < m → m < 2 ^ fuel →
      m = 2 ^ (splitTwos fuel m).1 * (splitTwos fuel m).2 ∧ (splitTwos fuel m).2 % 2 = 1 := by
  intro fuel
  induction fuel with
  | zero => intro m h0 h; simp at h; omega
  | succ fuel ih =>
    intro m h0 h
    unfold splitTwos
    split
    · next heven =>
      obtain ⟨h1, h2⟩ := ih (m / 2) (by omega) (by rw [pow_succ] at h; omega)
      refine ⟨?_, h2⟩
      rw [pow_succ, mul_right_comm, ← h1]; omega
    · next hodd => exact ⟨by simp, by simpa using hodd⟩

/-- The decomposition `m = 2^s · d` with `d` odd is unique. -/
theorem twos_unique {s d s' d' : Nat} (h : 2 ^ s * d = 2 ^ s' * d') (hd : d % 2 = 1) (hd' : d' % 2 = 1) :
    s = s' ∧ d = d' := by
  induction s generalizing s' with
  | zero =>
    cases s' with
    | zero => simpa using h
    | succ s' => rw [pow_succ] at h; have : d = 2 * (2 ^ s' * d') := by rw [← mul_assoc, mul_comm 2]; simpa using h
                 omega
  | succ s ih =>
    cases s' with
    | zero => rw [pow_succ] at h; have : d' = 2 * (2 ^ s * d) := by rw [← mul_assoc, mul_comm 2]; simpa using h.symm
              omega
    | succ s' =>
      have : 2 ^ s * d = 2 ^ s' * d' := by
        rw [pow_succ, pow_succ, mul_right_comm, mul_right_comm (2 ^ s')] at h; omega
      obtain ⟨rfl, rfl⟩ := ih this; exact ⟨rfl, rfl⟩

theorem splitTwos_eq (m s d : Nat) (hm : 0 < m) (h : m = 2 ^ s * d) (hd : d % 2 = 1) :
    splitTwos (m.log2 + 1) m = (s, d) := by
  obtain ⟨h1, h2⟩ := splitTwos_spec (m.log2 + 1) m hm Nat.lt_log2_self
  obtain ⟨e1, e2⟩ := twos_unique (h1.symm.trans h) h2 hd
  exact Prod.ext e1 e2

/-! ### Miller–Rabin -/

/-- The inner loop of Listing 40-A: some of the next `j` squarings gives `n − 1`. -/
theorem squaringsPass_iff (n : Nat) :
    ∀ (j x : Nat), squaringsPass n j x = true ↔ ∃ i, 1 ≤ i ∧ i ≤ j ∧ x ^ 2 ^ i % n = n - 1 := by
  intro j
  induction j with
  | zero => intro x; exact ⟨fun h => by simp [squaringsPass] at h, fun ⟨i, h1, h2, _⟩ => by omega⟩
  | succ j ih =>
    intro x
    have hpow : ∀ i, (x * x % n) ^ 2 ^ i % n = x ^ 2 ^ (i + 1) % n := by
      intro i; rw [← Nat.pow_mod, ← pow_two, ← pow_mul, ← pow_succ']
    unfold squaringsPass
    split
    · next h => exact ⟨fun _ => ⟨1, le_refl 1, by omega, by rw [pow_one, sq]; exact h⟩, fun _ => rfl⟩
    · next h =>
      rw [ih]
      constructor
      · rintro ⟨i, h1, h2, h3⟩; exact ⟨i + 1, by omega, by omega, by rw [← hpow]; exact h3⟩
      · rintro ⟨i, h1, h2, h3⟩
        obtain rfl | hi : i = 1 ∨ 2 ≤ i := by omega
        · rw [pow_one, sq] at h3; exact absurd h3 h
        · exact ⟨i - 1, by omega, by omega, by rw [hpow]; rw [Nat.sub_add_cancel h1]; exact h3⟩

/-- One round of Listing 40-A, for `n − 1 = 2^s · d` with `d` odd: `a^d mod n` is 1, or some `a^(2^j·d) mod n` with
`j < s` is `n − 1`. -/
theorem mrRoundPasses_iff (n a s d : Nat) (hn : 3 ≤ n) (h : n - 1 = 2 ^ s * d) (hd : d % 2 = 1) (hs : 1 ≤ s) :
    mrRoundPasses n a = true ↔ a ^ d % n = 1 ∨ ∃ j, j < s ∧ a ^ (2 ^ j * d) % n = n - 1 := by
  have hpow : ∀ i, (a ^ d % n) ^ 2 ^ i % n = a ^ (2 ^ i * d) % n := by
    intro i; rw [← Nat.pow_mod, ← pow_mul, mul_comm]
  unfold mrRoundPasses
  rw [splitTwos_eq (n - 1) s d (by omega) h hd]
  simp only [modexp_eq a d n (by omega)]
  split
  · next h1 => simp [h1]
  · next h1 =>
    split
    · next h2 => exact ⟨fun _ => .inr ⟨0, by omega, by simpa using h2⟩, fun _ => rfl⟩
    · next h2 =>
      rw [squaringsPass_iff]
      constructor
      · rintro ⟨i, _, hi2, h3⟩; exact .inr ⟨i, by omega, by rw [← hpow]; exact h3⟩
      · rintro (h3 | ⟨j, hj, h3⟩)
        · exact absurd h3 h1
        · obtain rfl | hj0 : j = 0 ∨ 1 ≤ j := by omega
          · exact absurd (by simpa using h3) h2
          · exact ⟨j, hj0, by omega, by rw [hpow]; exact h3⟩

/-- The cases without draws (rule R60): none exactly for an odd `n ≥ 5`. -/
theorem mrWithoutDraws_none_iff (n : Nat) : mrWithoutDraws n = none ↔ 5 ≤ n ∧ n % 2 = 1 := by
  unfold mrWithoutDraws
  split
  · simp; omega
  · split
    · simp; omega
    · split
      · simp; omega
      · simp; omega

theorem mrWithoutDraws_some (n : Nat) (h : n < 5 ∨ n % 2 = 0) :
    mrWithoutDraws n = some (decide (n = 2 ∨ n = 3)) := by
  unfold mrWithoutDraws
  split
  · simp; omega
  · split
    · simp; omega
    · split
      · simp; omega
      · omega

/-- The base of a round lies in `[2, n − 2]` (rule R59). -/
theorem mrBase_range (n w : Nat) (hn : 5 ≤ n) : 2 ≤ mrBase n w ∧ mrBase n w ≤ n - 2 := by
  have := Nat.mod_lt w (show 0 < n - 3 by omega)
  unfold mrBase; omega

/-! ### `egcd` -/

/-- The loop keeps `u·s0 + v·t0 = r0` and `u·s1 + v·t1 = r1` (Listing 43-A's invariant), and it ends with `r1 = 0`. -/
theorem egcdLoop_spec (u v : Int) :
    ∀ (fuel r0 r1 : Nat) (s0 s1 t0 t1 : Int), r1 < fuel →
      u * s0 + v * t0 = r0 → u * s1 + v * t1 = r1 →
      (egcdLoop fuel r0 r1 s0 s1 t0 t1).1 = Nat.gcd r0 r1 ∧
        u * (egcdLoop fuel r0 r1 s0 s1 t0 t1).2.1 + v * (egcdLoop fuel r0 r1 s0 s1 t0 t1).2.2 = (Nat.gcd r0 r1 : Nat) := by
  intro fuel
  induction fuel with
  | zero => intro r0 r1 s0 s1 t0 t1 h; omega
  | succ fuel ih =>
    intro r0 r1 s0 s1 t0 t1 h h0 h1
    unfold egcdLoop
    split
    · next hz => subst hz; simpa using h0
    · next hz =>
      have hmod : r0 - r0 / r1 * r1 = r0 % r1 := by
        have := Nat.div_add_mod r0 r1; rw [mul_comm] at this; omega
      have hmodi : ((r0 % r1 : Nat) : Int) = r0 - (r0 / r1 : Nat) * r1 := by
        have : ((r1 * (r0 / r1) + r0 % r1 : Nat) : Int) = r0 := by rw [Nat.div_add_mod]
        push_cast at *; linarith
      have hlt := Nat.mod_lt r0 (Nat.pos_of_ne_zero hz)
      rw [hmod]
      have hg : Nat.gcd r1 (r0 % r1) = Nat.gcd r0 r1 := by rw [Nat.gcd_comm, ← Nat.gcd_rec, Nat.gcd_comm]
      rw [← hg]
      exact ih r1 (r0 % r1) _ _ _ _ (by omega) h1 (by rw [hmodi, ← h0, ← h1]; ring)

end Sys2Proof.Machine
end

