-- ==== Sys2Proof/Laws/State.lean ====
section
/-! SUPPORT. One lemma per field per update of State, true by definition, so that no later proof unfolds a record
update. -/

namespace Sys2Proof.Machine

/-! ### `complete` -/

@[simp] theorem complete_params (r0 r1 r2 r3 : Nat) (f : Flags) (s : State) : (complete r0 r1 r2 r3 f s).params = s.params := rfl

@[simp] theorem complete_opa (r0 r1 r2 r3 : Nat) (f : Flags) (s : State) : (complete r0 r1 r2 r3 f s).opa = s.opa := rfl

@[simp] theorem complete_opb (r0 r1 r2 r3 : Nat) (f : Flags) (s : State) : (complete r0 r1 r2 r3 f s).opb = s.opb := rfl

@[simp] theorem complete_opp (r0 r1 r2 r3 : Nat) (f : Flags) (s : State) : (complete r0 r1 r2 r3 f s).opp = s.opp := rfl

@[simp] theorem complete_opq (r0 r1 r2 r3 : Nat) (f : Flags) (s : State) : (complete r0 r1 r2 r3 f s).opq = s.opq := rfl

@[simp] theorem complete_res0 (r0 r1 r2 r3 : Nat) (f : Flags) (s : State) : (complete r0 r1 r2 r3 f s).res0 = r0 := rfl

@[simp] theorem complete_res1 (r0 r1 r2 r3 : Nat) (f : Flags) (s : State) : (complete r0 r1 r2 r3 f s).res1 = r1 := rfl

@[simp] theorem complete_res2 (r0 r1 r2 r3 : Nat) (f : Flags) (s : State) : (complete r0 r1 r2 r3 f s).res2 = r2 := rfl

@[simp] theorem complete_res3 (r0 r1 r2 r3 : Nat) (f : Flags) (s : State) : (complete r0 r1 r2 r3 f s).res3 = r3 := rfl

@[simp] theorem complete_status (r0 r1 r2 r3 : Nat) (f : Flags) (s : State) : (complete r0 r1 r2 r3 f s).status = doneStatus f := rfl

@[simp] theorem complete_command (r0 r1 r2 r3 : Nat) (f : Flags) (s : State) : (complete r0 r1 r2 r3 f s).command = none := rfl

@[simp] theorem complete_rnd (r0 r1 r2 r3 : Nat) (f : Flags) (s : State) : (complete r0 r1 r2 r3 f s).rnd = .idle := rfl

@[simp] theorem complete_round (r0 r1 r2 r3 : Nat) (f : Flags) (s : State) : (complete r0 r1 r2 r3 f s).round = 0 := rfl

@[simp] theorem complete_inReset (r0 r1 r2 r3 : Nat) (f : Flags) (s : State) : (complete r0 r1 r2 r3 f s).inReset = s.inReset := rfl

@[simp] theorem complete_turns (r0 r1 r2 r3 : Nat) (f : Flags) (s : State) : (complete r0 r1 r2 r3 f s).turns = s.turns := rfl

@[simp] theorem complete_replies (r0 r1 r2 r3 : Nat) (f : Flags) (s : State) : (complete r0 r1 r2 r3 f s).replies = s.replies := rfl

@[simp] theorem complete_requests (r0 r1 r2 r3 : Nat) (f : Flags) (s : State) : (complete r0 r1 r2 r3 f s).requests = s.requests := rfl

/-! ### `commandError` -/

@[simp] theorem commandError_params (e : CommandError) (s : State) : (commandError e s).params = s.params := rfl

@[simp] theorem commandError_opa (e : CommandError) (s : State) : (commandError e s).opa = s.opa := rfl

@[simp] theorem commandError_opb (e : CommandError) (s : State) : (commandError e s).opb = s.opb := rfl

@[simp] theorem commandError_opp (e : CommandError) (s : State) : (commandError e s).opp = s.opp := rfl

@[simp] theorem commandError_opq (e : CommandError) (s : State) : (commandError e s).opq = s.opq := rfl

@[simp] theorem commandError_res0 (e : CommandError) (s : State) : (commandError e s).res0 = 0 := rfl

@[simp] theorem commandError_res1 (e : CommandError) (s : State) : (commandError e s).res1 = 0 := rfl

@[simp] theorem commandError_res2 (e : CommandError) (s : State) : (commandError e s).res2 = 0 := rfl

@[simp] theorem commandError_res3 (e : CommandError) (s : State) : (commandError e s).res3 = 0 := rfl

@[simp] theorem commandError_status (e : CommandError) (s : State) : (commandError e s).status = errorStatus e := rfl

@[simp] theorem commandError_command (e : CommandError) (s : State) : (commandError e s).command = none := rfl

@[simp] theorem commandError_rnd (e : CommandError) (s : State) : (commandError e s).rnd = .idle := rfl

@[simp] theorem commandError_round (e : CommandError) (s : State) : (commandError e s).round = 0 := rfl

@[simp] theorem commandError_inReset (e : CommandError) (s : State) : (commandError e s).inReset = s.inReset := rfl

@[simp] theorem commandError_turns (e : CommandError) (s : State) : (commandError e s).turns = s.turns := rfl

@[simp] theorem commandError_replies (e : CommandError) (s : State) : (commandError e s).replies = s.replies := rfl

@[simp] theorem commandError_requests (e : CommandError) (s : State) : (commandError e s).requests = s.requests := rfl

/-! ### `issue` -/

@[simp] theorem issue_params (w : Word) (s : State) : (issue w s).params = s.params := rfl

@[simp] theorem issue_opa (w : Word) (s : State) : (issue w s).opa = s.opa := rfl

@[simp] theorem issue_opb (w : Word) (s : State) : (issue w s).opb = s.opb := rfl

@[simp] theorem issue_opp (w : Word) (s : State) : (issue w s).opp = s.opp := rfl

@[simp] theorem issue_opq (w : Word) (s : State) : (issue w s).opq = s.opq := rfl

@[simp] theorem issue_res0 (w : Word) (s : State) : (issue w s).res0 = s.res0 := rfl

@[simp] theorem issue_res1 (w : Word) (s : State) : (issue w s).res1 = s.res1 := rfl

@[simp] theorem issue_res2 (w : Word) (s : State) : (issue w s).res2 = s.res2 := rfl

@[simp] theorem issue_res3 (w : Word) (s : State) : (issue w s).res3 = s.res3 := rfl

@[simp] theorem issue_status (w : Word) (s : State) : (issue w s).status = busyStatus := rfl

@[simp] theorem issue_command (w : Word) (s : State) : (issue w s).command = some w := rfl

@[simp] theorem issue_rnd (w : Word) (s : State) : (issue w s).rnd = .idle := rfl

@[simp] theorem issue_round (w : Word) (s : State) : (issue w s).round = 0 := rfl

@[simp] theorem issue_inReset (w : Word) (s : State) : (issue w s).inReset = s.inReset := rfl

@[simp] theorem issue_turns (w : Word) (s : State) : (issue w s).turns = s.turns := rfl

@[simp] theorem issue_replies (w : Word) (s : State) : (issue w s).replies = s.replies := rfl

@[simp] theorem issue_requests (w : Word) (s : State) : (issue w s).requests = s.requests := rfl

/-! ### `wipeOperands` -/

@[simp] theorem wipeOperands_params (s : State) : (wipeOperands s).params = s.params := rfl

@[simp] theorem wipeOperands_opa (s : State) : (wipeOperands s).opa = 0 := rfl

@[simp] theorem wipeOperands_opb (s : State) : (wipeOperands s).opb = 0 := rfl

@[simp] theorem wipeOperands_opp (s : State) : (wipeOperands s).opp = 0 := rfl

@[simp] theorem wipeOperands_opq (s : State) : (wipeOperands s).opq = 0 := rfl

@[simp] theorem wipeOperands_res0 (s : State) : (wipeOperands s).res0 = s.res0 := rfl

@[simp] theorem wipeOperands_res1 (s : State) : (wipeOperands s).res1 = s.res1 := rfl

@[simp] theorem wipeOperands_res2 (s : State) : (wipeOperands s).res2 = s.res2 := rfl

@[simp] theorem wipeOperands_res3 (s : State) : (wipeOperands s).res3 = s.res3 := rfl

@[simp] theorem wipeOperands_status (s : State) : (wipeOperands s).status = s.status := rfl

@[simp] theorem wipeOperands_command (s : State) : (wipeOperands s).command = s.command := rfl

@[simp] theorem wipeOperands_rnd (s : State) : (wipeOperands s).rnd = s.rnd := rfl

@[simp] theorem wipeOperands_round (s : State) : (wipeOperands s).round = s.round := rfl

@[simp] theorem wipeOperands_inReset (s : State) : (wipeOperands s).inReset = s.inReset := rfl

@[simp] theorem wipeOperands_turns (s : State) : (wipeOperands s).turns = s.turns := rfl

@[simp] theorem wipeOperands_replies (s : State) : (wipeOperands s).replies = s.replies := rfl

@[simp] theorem wipeOperands_requests (s : State) : (wipeOperands s).requests = s.requests := rfl

/-! ### `requestDraw` -/

@[simp] theorem requestDraw_params (s : State) : (requestDraw s).params = s.params := rfl

@[simp] theorem requestDraw_opa (s : State) : (requestDraw s).opa = s.opa := rfl

@[simp] theorem requestDraw_opb (s : State) : (requestDraw s).opb = s.opb := rfl

@[simp] theorem requestDraw_opp (s : State) : (requestDraw s).opp = s.opp := rfl

@[simp] theorem requestDraw_opq (s : State) : (requestDraw s).opq = s.opq := rfl

@[simp] theorem requestDraw_res0 (s : State) : (requestDraw s).res0 = s.res0 := rfl

@[simp] theorem requestDraw_res1 (s : State) : (requestDraw s).res1 = s.res1 := rfl

@[simp] theorem requestDraw_res2 (s : State) : (requestDraw s).res2 = s.res2 := rfl

@[simp] theorem requestDraw_res3 (s : State) : (requestDraw s).res3 = s.res3 := rfl

@[simp] theorem requestDraw_status (s : State) : (requestDraw s).status = s.status := rfl

@[simp] theorem requestDraw_command (s : State) : (requestDraw s).command = s.command := rfl

@[simp] theorem requestDraw_rnd (s : State) : (requestDraw s).rnd = .waiting := rfl

@[simp] theorem requestDraw_round (s : State) : (requestDraw s).round = s.round := rfl

@[simp] theorem requestDraw_inReset (s : State) : (requestDraw s).inReset = s.inReset := rfl

@[simp] theorem requestDraw_turns (s : State) : (requestDraw s).turns = s.turns := rfl

@[simp] theorem requestDraw_replies (s : State) : (requestDraw s).replies = s.replies := rfl

@[simp] theorem requestDraw_requests (s : State) : (requestDraw s).requests = s.requests + 1 := rfl

/-! ### `countRound` -/

@[simp] theorem countRound_params (s : State) : (countRound s).params = s.params := rfl

@[simp] theorem countRound_opa (s : State) : (countRound s).opa = s.opa := rfl

@[simp] theorem countRound_opb (s : State) : (countRound s).opb = s.opb := rfl

@[simp] theorem countRound_opp (s : State) : (countRound s).opp = s.opp := rfl

@[simp] theorem countRound_opq (s : State) : (countRound s).opq = s.opq := rfl

@[simp] theorem countRound_res0 (s : State) : (countRound s).res0 = s.res0 := rfl

@[simp] theorem countRound_res1 (s : State) : (countRound s).res1 = s.res1 := rfl

@[simp] theorem countRound_res2 (s : State) : (countRound s).res2 = s.res2 := rfl

@[simp] theorem countRound_res3 (s : State) : (countRound s).res3 = s.res3 := rfl

@[simp] theorem countRound_status (s : State) : (countRound s).status = s.status := rfl

@[simp] theorem countRound_command (s : State) : (countRound s).command = s.command := rfl

@[simp] theorem countRound_rnd (s : State) : (countRound s).rnd = s.rnd := rfl

@[simp] theorem countRound_round (s : State) : (countRound s).round = s.round + 1 := rfl

@[simp] theorem countRound_inReset (s : State) : (countRound s).inReset = s.inReset := rfl

@[simp] theorem countRound_turns (s : State) : (countRound s).turns = s.turns := rfl

@[simp] theorem countRound_replies (s : State) : (countRound s).replies = s.replies := rfl

@[simp] theorem countRound_requests (s : State) : (countRound s).requests = s.requests := rfl

/-! ### `completeMrtest` -/

@[simp] theorem completeMrtest_params (prime : Bool) (s : State) : (completeMrtest prime s).params = s.params := rfl

@[simp] theorem completeMrtest_opa (prime : Bool) (s : State) : (completeMrtest prime s).opa = s.opa := rfl

@[simp] theorem completeMrtest_opb (prime : Bool) (s : State) : (completeMrtest prime s).opb = s.opb := rfl

@[simp] theorem completeMrtest_opp (prime : Bool) (s : State) : (completeMrtest prime s).opp = s.opp := rfl

@[simp] theorem completeMrtest_opq (prime : Bool) (s : State) : (completeMrtest prime s).opq = s.opq := rfl

@[simp] theorem completeMrtest_res0 (prime : Bool) (s : State) : (completeMrtest prime s).res0 = 0 := rfl

@[simp] theorem completeMrtest_res1 (prime : Bool) (s : State) : (completeMrtest prime s).res1 = 0 := rfl

@[simp] theorem completeMrtest_res2 (prime : Bool) (s : State) : (completeMrtest prime s).res2 = 0 := rfl

@[simp] theorem completeMrtest_res3 (prime : Bool) (s : State) : (completeMrtest prime s).res3 = 0 := rfl

@[simp] theorem completeMrtest_status (prime : Bool) (s : State) : (completeMrtest prime s).status = doneStatus (mrtestFlags s.params.k s.opa prime) := rfl

@[simp] theorem completeMrtest_command (prime : Bool) (s : State) : (completeMrtest prime s).command = none := rfl

@[simp] theorem completeMrtest_rnd (prime : Bool) (s : State) : (completeMrtest prime s).rnd = .idle := rfl

@[simp] theorem completeMrtest_round (prime : Bool) (s : State) : (completeMrtest prime s).round = 0 := rfl

@[simp] theorem completeMrtest_inReset (prime : Bool) (s : State) : (completeMrtest prime s).inReset = s.inReset := rfl

@[simp] theorem completeMrtest_turns (prime : Bool) (s : State) : (completeMrtest prime s).turns = s.turns := rfl

@[simp] theorem completeMrtest_replies (prime : Bool) (s : State) : (completeMrtest prime s).replies = s.replies := rfl

@[simp] theorem completeMrtest_requests (prime : Bool) (s : State) : (completeMrtest prime s).requests = s.requests := rfl

/-! ### `blockReset` -/

@[simp] theorem blockReset_params (s : State) : (blockReset s).params = s.params := rfl

@[simp] theorem blockReset_opa (s : State) : (blockReset s).opa = 0 := rfl

@[simp] theorem blockReset_opb (s : State) : (blockReset s).opb = 0 := rfl

@[simp] theorem blockReset_opp (s : State) : (blockReset s).opp = 0 := rfl

@[simp] theorem blockReset_opq (s : State) : (blockReset s).opq = 0 := rfl

@[simp] theorem blockReset_res0 (s : State) : (blockReset s).res0 = 0 := rfl

@[simp] theorem blockReset_res1 (s : State) : (blockReset s).res1 = 0 := rfl

@[simp] theorem blockReset_res2 (s : State) : (blockReset s).res2 = 0 := rfl

@[simp] theorem blockReset_res3 (s : State) : (blockReset s).res3 = 0 := rfl

@[simp] theorem blockReset_status (s : State) : (blockReset s).status = Status.zero := rfl

@[simp] theorem blockReset_command (s : State) : (blockReset s).command = none := rfl

@[simp] theorem blockReset_rnd (s : State) : (blockReset s).rnd = .idle := rfl

@[simp] theorem blockReset_round (s : State) : (blockReset s).round = 0 := rfl

@[simp] theorem blockReset_inReset (s : State) : (blockReset s).inReset = true := rfl

@[simp] theorem blockReset_turns (s : State) : (blockReset s).turns = s.turns := rfl

@[simp] theorem blockReset_replies (s : State) : (blockReset s).replies = s.replies := rfl

@[simp] theorem blockReset_requests (s : State) : (blockReset s).requests = s.requests := rfl

/-! ### `recordReply` -/

@[simp] theorem recordReply_params (x : Word) (s : State) : (recordReply x s).params = s.params := rfl

@[simp] theorem recordReply_opa (x : Word) (s : State) : (recordReply x s).opa = s.opa := rfl

@[simp] theorem recordReply_opb (x : Word) (s : State) : (recordReply x s).opb = s.opb := rfl

@[simp] theorem recordReply_opp (x : Word) (s : State) : (recordReply x s).opp = s.opp := rfl

@[simp] theorem recordReply_opq (x : Word) (s : State) : (recordReply x s).opq = s.opq := rfl

@[simp] theorem recordReply_res0 (x : Word) (s : State) : (recordReply x s).res0 = s.res0 := rfl

@[simp] theorem recordReply_res1 (x : Word) (s : State) : (recordReply x s).res1 = s.res1 := rfl

@[simp] theorem recordReply_res2 (x : Word) (s : State) : (recordReply x s).res2 = s.res2 := rfl

@[simp] theorem recordReply_res3 (x : Word) (s : State) : (recordReply x s).res3 = s.res3 := rfl

@[simp] theorem recordReply_status (x : Word) (s : State) : (recordReply x s).status = s.status := rfl

@[simp] theorem recordReply_command (x : Word) (s : State) : (recordReply x s).command = s.command := rfl

@[simp] theorem recordReply_rnd (x : Word) (s : State) : (recordReply x s).rnd = s.rnd := rfl

@[simp] theorem recordReply_round (x : Word) (s : State) : (recordReply x s).round = s.round := rfl

@[simp] theorem recordReply_inReset (x : Word) (s : State) : (recordReply x s).inReset = s.inReset := rfl

@[simp] theorem recordReply_turns (x : Word) (s : State) : (recordReply x s).turns = s.turns := rfl

@[simp] theorem recordReply_replies (x : Word) (s : State) : (recordReply x s).replies = x :: s.replies := rfl

@[simp] theorem recordReply_requests (x : Word) (s : State) : (recordReply x s).requests = s.requests := rfl

/-! ### `releaseReset` -/

@[simp] theorem releaseReset_params (s : State) : (releaseReset s).params = s.params := rfl

@[simp] theorem releaseReset_opa (s : State) : (releaseReset s).opa = s.opa := rfl

@[simp] theorem releaseReset_opb (s : State) : (releaseReset s).opb = s.opb := rfl

@[simp] theorem releaseReset_opp (s : State) : (releaseReset s).opp = s.opp := rfl

@[simp] theorem releaseReset_opq (s : State) : (releaseReset s).opq = s.opq := rfl

@[simp] theorem releaseReset_res0 (s : State) : (releaseReset s).res0 = s.res0 := rfl

@[simp] theorem releaseReset_res1 (s : State) : (releaseReset s).res1 = s.res1 := rfl

@[simp] theorem releaseReset_res2 (s : State) : (releaseReset s).res2 = s.res2 := rfl

@[simp] theorem releaseReset_res3 (s : State) : (releaseReset s).res3 = s.res3 := rfl

@[simp] theorem releaseReset_status (s : State) : (releaseReset s).status = s.status := rfl

@[simp] theorem releaseReset_command (s : State) : (releaseReset s).command = s.command := rfl

@[simp] theorem releaseReset_rnd (s : State) : (releaseReset s).rnd = s.rnd := rfl

@[simp] theorem releaseReset_round (s : State) : (releaseReset s).round = s.round := rfl

@[simp] theorem releaseReset_inReset (s : State) : (releaseReset s).inReset = false := rfl

@[simp] theorem releaseReset_turns (s : State) : (releaseReset s).turns = s.turns := rfl

@[simp] theorem releaseReset_replies (s : State) : (releaseReset s).replies = s.replies := rfl

@[simp] theorem releaseReset_requests (s : State) : (releaseReset s).requests = s.requests := rfl

/-! ### `dropTurn` -/

@[simp] theorem dropTurn_params (s : State) : (dropTurn s).params = s.params := rfl

@[simp] theorem dropTurn_opa (s : State) : (dropTurn s).opa = s.opa := rfl

@[simp] theorem dropTurn_opb (s : State) : (dropTurn s).opb = s.opb := rfl

@[simp] theorem dropTurn_opp (s : State) : (dropTurn s).opp = s.opp := rfl

@[simp] theorem dropTurn_opq (s : State) : (dropTurn s).opq = s.opq := rfl

@[simp] theorem dropTurn_res0 (s : State) : (dropTurn s).res0 = s.res0 := rfl

@[simp] theorem dropTurn_res1 (s : State) : (dropTurn s).res1 = s.res1 := rfl

@[simp] theorem dropTurn_res2 (s : State) : (dropTurn s).res2 = s.res2 := rfl

@[simp] theorem dropTurn_res3 (s : State) : (dropTurn s).res3 = s.res3 := rfl

@[simp] theorem dropTurn_status (s : State) : (dropTurn s).status = s.status := rfl

@[simp] theorem dropTurn_command (s : State) : (dropTurn s).command = s.command := rfl

@[simp] theorem dropTurn_rnd (s : State) : (dropTurn s).rnd = s.rnd := rfl

@[simp] theorem dropTurn_round (s : State) : (dropTurn s).round = s.round := rfl

@[simp] theorem dropTurn_inReset (s : State) : (dropTurn s).inReset = s.inReset := rfl

@[simp] theorem dropTurn_turns (s : State) : (dropTurn s).turns = s.turns.tail := rfl

@[simp] theorem dropTurn_replies (s : State) : (dropTurn s).replies = s.replies := rfl

@[simp] theorem dropTurn_requests (s : State) : (dropTurn s).requests = s.requests := rfl

/-! ### `placeCommand` -/

@[simp] theorem placeCommand_params (w : Word) (s : State) : (placeCommand w s).params = s.params := rfl

@[simp] theorem placeCommand_opa (w : Word) (s : State) : (placeCommand w s).opa = s.opa := rfl

@[simp] theorem placeCommand_opb (w : Word) (s : State) : (placeCommand w s).opb = s.opb := rfl

@[simp] theorem placeCommand_opp (w : Word) (s : State) : (placeCommand w s).opp = s.opp := rfl

@[simp] theorem placeCommand_opq (w : Word) (s : State) : (placeCommand w s).opq = s.opq := rfl

@[simp] theorem placeCommand_res0 (w : Word) (s : State) : (placeCommand w s).res0 = s.res0 := rfl

@[simp] theorem placeCommand_res1 (w : Word) (s : State) : (placeCommand w s).res1 = s.res1 := rfl

@[simp] theorem placeCommand_res2 (w : Word) (s : State) : (placeCommand w s).res2 = s.res2 := rfl

@[simp] theorem placeCommand_res3 (w : Word) (s : State) : (placeCommand w s).res3 = s.res3 := rfl

@[simp] theorem placeCommand_status (w : Word) (s : State) : (placeCommand w s).status = busyStatus := rfl

@[simp] theorem placeCommand_command (w : Word) (s : State) : (placeCommand w s).command = some w := rfl

@[simp] theorem placeCommand_rnd (w : Word) (s : State) : (placeCommand w s).rnd = .idle := rfl

@[simp] theorem placeCommand_round (w : Word) (s : State) : (placeCommand w s).round = 0 := rfl

@[simp] theorem placeCommand_inReset (w : Word) (s : State) : (placeCommand w s).inReset = false := rfl

@[simp] theorem placeCommand_turns (w : Word) (s : State) : (placeCommand w s).turns = .block :: s.turns := rfl

@[simp] theorem placeCommand_replies (w : Word) (s : State) : (placeCommand w s).replies = s.replies := rfl

@[simp] theorem placeCommand_requests (w : Word) (s : State) : (placeCommand w s).requests = s.requests := rfl

/-! ### `acceptAnswer` (all but the port) -/

@[simp] theorem acceptAnswer_params (k : Nat) (a : Answer) (s : State) : (acceptAnswer k a s).params = s.params := by
  unfold acceptAnswer; split <;> rfl

@[simp] theorem acceptAnswer_opa (k : Nat) (a : Answer) (s : State) : (acceptAnswer k a s).opa = s.opa := by
  unfold acceptAnswer; split <;> rfl

@[simp] theorem acceptAnswer_opb (k : Nat) (a : Answer) (s : State) : (acceptAnswer k a s).opb = s.opb := by
  unfold acceptAnswer; split <;> rfl

@[simp] theorem acceptAnswer_opp (k : Nat) (a : Answer) (s : State) : (acceptAnswer k a s).opp = s.opp := by
  unfold acceptAnswer; split <;> rfl

@[simp] theorem acceptAnswer_opq (k : Nat) (a : Answer) (s : State) : (acceptAnswer k a s).opq = s.opq := by
  unfold acceptAnswer; split <;> rfl

@[simp] theorem acceptAnswer_res0 (k : Nat) (a : Answer) (s : State) : (acceptAnswer k a s).res0 = s.res0 := by
  unfold acceptAnswer; split <;> rfl

@[simp] theorem acceptAnswer_res1 (k : Nat) (a : Answer) (s : State) : (acceptAnswer k a s).res1 = s.res1 := by
  unfold acceptAnswer; split <;> rfl

@[simp] theorem acceptAnswer_res2 (k : Nat) (a : Answer) (s : State) : (acceptAnswer k a s).res2 = s.res2 := by
  unfold acceptAnswer; split <;> rfl

@[simp] theorem acceptAnswer_res3 (k : Nat) (a : Answer) (s : State) : (acceptAnswer k a s).res3 = s.res3 := by
  unfold acceptAnswer; split <;> rfl

@[simp] theorem acceptAnswer_status (k : Nat) (a : Answer) (s : State) : (acceptAnswer k a s).status = s.status := by
  unfold acceptAnswer; split <;> rfl

@[simp] theorem acceptAnswer_command (k : Nat) (a : Answer) (s : State) : (acceptAnswer k a s).command = s.command := by
  unfold acceptAnswer; split <;> rfl

@[simp] theorem acceptAnswer_round (k : Nat) (a : Answer) (s : State) : (acceptAnswer k a s).round = s.round := by
  unfold acceptAnswer; split <;> rfl

@[simp] theorem acceptAnswer_inReset (k : Nat) (a : Answer) (s : State) : (acceptAnswer k a s).inReset = s.inReset := by
  unfold acceptAnswer; split <;> rfl

@[simp] theorem acceptAnswer_turns (k : Nat) (a : Answer) (s : State) : (acceptAnswer k a s).turns = s.turns := by
  unfold acceptAnswer; split <;> rfl

@[simp] theorem acceptAnswer_replies (k : Nat) (a : Answer) (s : State) : (acceptAnswer k a s).replies = s.replies := by
  unfold acceptAnswer; split <;> rfl

@[simp] theorem acceptAnswer_requests (k : Nat) (a : Answer) (s : State) : (acceptAnswer k a s).requests = s.requests := by
  unfold acceptAnswer; split <;> rfl

/-! ### `setReg` (all but the data registers) -/

@[simp] theorem setReg_params (r : Reg) (v : Nat) (s : State) : (setReg r v s).params = s.params := by
  cases r <;> rfl

@[simp] theorem setReg_status (r : Reg) (v : Nat) (s : State) : (setReg r v s).status = s.status := by
  cases r <;> rfl

@[simp] theorem setReg_command (r : Reg) (v : Nat) (s : State) : (setReg r v s).command = s.command := by
  cases r <;> rfl

@[simp] theorem setReg_rnd (r : Reg) (v : Nat) (s : State) : (setReg r v s).rnd = s.rnd := by
  cases r <;> rfl

@[simp] theorem setReg_round (r : Reg) (v : Nat) (s : State) : (setReg r v s).round = s.round := by
  cases r <;> rfl

@[simp] theorem setReg_inReset (r : Reg) (v : Nat) (s : State) : (setReg r v s).inReset = s.inReset := by
  cases r <;> rfl

@[simp] theorem setReg_turns (r : Reg) (v : Nat) (s : State) : (setReg r v s).turns = s.turns := by
  cases r <;> rfl

@[simp] theorem setReg_replies (r : Reg) (v : Nat) (s : State) : (setReg r v s).replies = s.replies := by
  cases r <;> rfl

@[simp] theorem setReg_requests (r : Reg) (v : Nat) (s : State) : (setReg r v s).requests = s.requests := by
  cases r <;> rfl

/-! ### The data registers by name -/

@[simp] theorem getReg_setReg_self (r : Reg) (v : Nat) (s : State) : getReg (setReg r v s) r = v := by
  cases r <;> rfl

theorem getReg_setReg_ne (r q : Reg) (v : Nat) (s : State) (h : q ≠ r) : getReg (setReg r v s) q = getReg s q := by
  cases r <;> cases q <;> first | rfl | exact absurd rfl h

theorem setReg_getReg (r : Reg) (s : State) : setReg r (getReg s r) s = s := by
  cases r <;> rfl

theorem setReg_setReg (r : Reg) (v x : Nat) (s : State) : setReg r x (setReg r v s) = setReg r x s := by
  cases r <;> rfl

@[simp] theorem getReg_issue (w : Word) (s : State) (r : Reg) : getReg (issue w s) r = getReg s r := by
  cases r <;> rfl

@[simp] theorem getReg_requestDraw (s : State) (r : Reg) : getReg (requestDraw s) r = getReg s r := by
  cases r <;> rfl

@[simp] theorem getReg_countRound (s : State) (r : Reg) : getReg (countRound s) r = getReg s r := by
  cases r <;> rfl

@[simp] theorem getReg_recordReply (x : Word) (s : State) (r : Reg) : getReg (recordReply x s) r = getReg s r := by
  cases r <;> rfl

@[simp] theorem getReg_releaseReset (s : State) (r : Reg) : getReg (releaseReset s) r = getReg s r := by
  cases r <;> rfl

@[simp] theorem getReg_dropTurn (s : State) (r : Reg) : getReg (dropTurn s) r = getReg s r := by
  cases r <;> rfl

@[simp] theorem getReg_placeCommand (w : Word) (s : State) (r : Reg) : getReg (placeCommand w s) r = getReg s r := by
  cases r <;> rfl

@[simp] theorem getReg_acceptAnswer (k : Nat) (a : Answer) (s : State) (r : Reg) :
    getReg (acceptAnswer k a s) r = getReg s r := by
  unfold acceptAnswer; split <;> cases r <;> rfl

@[simp] theorem getReg_blockReset (s : State) (r : Reg) : getReg (blockReset s) r = 0 := by
  cases r <;> rfl

@[simp] theorem getReg_resetOf (p : Params) (r : Reg) : getReg (State.resetOf p) r = 0 := by
  cases r <;> rfl

/-! ### The status values -/

@[simp] theorem busyStatus_busy : busyStatus.busy = true := rfl

@[simp] theorem busyStatus_done : busyStatus.done = false := rfl

@[simp] theorem busyStatus_err : busyStatus.err = false := rfl

@[simp] theorem busyStatus_errcode : busyStatus.errcode = 0#4 := rfl

@[simp] theorem busyStatus_flags : busyStatus.flags = Flags.none := rfl

@[simp] theorem doneStatus_busy (f : Flags) : (doneStatus f).busy = false := rfl

@[simp] theorem doneStatus_done (f : Flags) : (doneStatus f).done = true := rfl

@[simp] theorem doneStatus_err (f : Flags) : (doneStatus f).err = false := rfl

@[simp] theorem doneStatus_errcode (f : Flags) : (doneStatus f).errcode = 0#4 := rfl

@[simp] theorem doneStatus_flags (f : Flags) : (doneStatus f).flags = f := rfl

@[simp] theorem errorStatus_busy (e : CommandError) : (errorStatus e).busy = false := rfl

@[simp] theorem errorStatus_done (e : CommandError) : (errorStatus e).done = true := rfl

@[simp] theorem errorStatus_err (e : CommandError) : (errorStatus e).err = true := rfl

@[simp] theorem errorStatus_errcode (e : CommandError) : (errorStatus e).errcode = errorCode e := rfl

@[simp] theorem errorStatus_flags (e : CommandError) : (errorStatus e).flags = Flags.none := rfl

@[simp] theorem flagsNone_sx : Flags.none.sx = false := rfl

@[simp] theorem flagsNone_sy : Flags.none.sy = false := rfl

@[simp] theorem flagsNone_prime : Flags.none.prime = false := rfl

@[simp] theorem flagsNone_c3m4 : Flags.none.c3m4 = false := rfl

@[simp] theorem flagsNone_lenk : Flags.none.lenk = false := rfl

@[simp] theorem statusZero_busy : Status.zero.busy = false := rfl

@[simp] theorem statusZero_done : Status.zero.done = false := rfl

@[simp] theorem statusZero_err : Status.zero.err = false := rfl

@[simp] theorem statusZero_errcode : Status.zero.errcode = 0#4 := rfl

@[simp] theorem statusZero_flags : Status.zero.flags = Flags.none := rfl

@[simp] theorem resetOf_params (p : Params) : (State.resetOf p).params = p := rfl

@[simp] theorem resetOf_opa (p : Params) : (State.resetOf p).opa = 0 := rfl

@[simp] theorem resetOf_opb (p : Params) : (State.resetOf p).opb = 0 := rfl

@[simp] theorem resetOf_opp (p : Params) : (State.resetOf p).opp = 0 := rfl

@[simp] theorem resetOf_opq (p : Params) : (State.resetOf p).opq = 0 := rfl

@[simp] theorem resetOf_res0 (p : Params) : (State.resetOf p).res0 = 0 := rfl

@[simp] theorem resetOf_res1 (p : Params) : (State.resetOf p).res1 = 0 := rfl

@[simp] theorem resetOf_res2 (p : Params) : (State.resetOf p).res2 = 0 := rfl

@[simp] theorem resetOf_res3 (p : Params) : (State.resetOf p).res3 = 0 := rfl

@[simp] theorem resetOf_status (p : Params) : (State.resetOf p).status = Status.zero := rfl

@[simp] theorem resetOf_command (p : Params) : (State.resetOf p).command = none := rfl

@[simp] theorem resetOf_rnd (p : Params) : (State.resetOf p).rnd = .idle := rfl

@[simp] theorem resetOf_round (p : Params) : (State.resetOf p).round = 0 := rfl

@[simp] theorem resetOf_inReset (p : Params) : (State.resetOf p).inReset = false := rfl

@[simp] theorem resetOf_turns (p : Params) : (State.resetOf p).turns = [] := rfl

@[simp] theorem resetOf_replies (p : Params) : (State.resetOf p).replies = [] := rfl

@[simp] theorem resetOf_requests (p : Params) : (State.resetOf p).requests = 0 := rfl

@[simp] theorem modsqrOperands_m (s : State) : (modsqrOperands s).m = s.opa := rfl

@[simp] theorem modsqrOperands_n (s : State) : (modsqrOperands s).n = s.opb := rfl

@[simp] theorem sqrtcrtOperands_c (s : State) : (sqrtcrtOperands s).c = s.opa := rfl

@[simp] theorem sqrtcrtOperands_p (s : State) : (sqrtcrtOperands s).p = s.opp := rfl

@[simp] theorem sqrtcrtOperands_q (s : State) : (sqrtcrtOperands s).q = s.opq := rfl

@[simp] theorem xgcdOperands_u (s : State) : (xgcdOperands s).u = s.opa := rfl

@[simp] theorem xgcdOperands_v (s : State) : (xgcdOperands s).v = s.opb := rfl

@[simp] theorem mrtestOperand_eq (s : State) : mrtestOperand s = s.opa := rfl

end Sys2Proof.Machine
end

