-- ==== Sys2Proof/Laws/Ops.lean ====
section
/-! SUPPORT. What each shared operation can do, said once: words of a register, the register map, host accesses, the
port to `rnd`, the meanings' possible outcomes, and the step by the turn it takes. -/

namespace Sys2Proof.Machine

/-! ### Words of a register (20_memory rule R32) -/

theorem wordOf_getLsbD (v j k : Nat) : (wordOf v j).getLsbD k = (decide (k < 32) && v.testBit (32 * j + k)) := by
  unfold wordOf
  rw [BitVec.getLsbD_ofNat, Nat.testBit_div_two_pow, Nat.add_comm]

/-- The three parts of a written register, as one positional sum. -/
theorem setWord_eq (width v j : Nat) (x : Word) :
    setWord width v j x =
      (2 ^ (32 * j) * (2 ^ 32 * (v / 2 ^ (32 * (j + 1))) + x.toNat) + v % 2 ^ (32 * j)) % 2 ^ width := by
  unfold setWord
  congr 1
  have : (2 : Nat) ^ (32 * (j + 1)) = 2 ^ (32 * j) * 2 ^ 32 := by rw [← pow_add]; congr 1
  rw [this]; ring

theorem setWord_lt (width v j : Nat) (x : Word) : setWord width v j x < 2 ^ width :=
  Nat.mod_lt _ (by positivity)

/-- Rule R35: a written word replaces exactly its 32 bits, as far as the register is wide. -/
theorem setWord_testBit (width v j k : Nat) (x : Word) (hk : k < width) :
    (setWord width v j x).testBit k =
      if 32 * j ≤ k ∧ k < 32 * j + 32 then x.getLsbD (k - 32 * j) else v.testBit k := by
  rw [setWord_eq, Nat.testBit_mod_two_pow]
  simp only [hk, decide_true, Bool.true_and]
  rw [Nat.testBit_two_pow_mul_add _ (Nat.mod_lt _ (by positivity))]
  by_cases h1 : k < 32 * j
  · rw [if_pos h1, if_neg (by omega), Nat.testBit_mod_two_pow]; simp [h1]
  · rw [if_neg h1, Nat.testBit_two_pow_mul_add _ x.isLt]
    by_cases h2 : k - 32 * j < 32
    · rw [if_pos h2, if_pos (by omega)]; rfl
    · rw [if_neg h2, if_neg (by omega), Nat.testBit_div_two_pow]
      congr 1; omega

/-! ### The map (Table 20-A) -/

theorem slotWords_pos (p : Params) : 0 < slotWords p := by
  have := p.legal; unfold slotWords Params.w; omega

theorem factorWords_le (p : Params) : factorWords p ≤ slotWords p := by
  unfold slotWords factorWords Params.w; omega

theorem regWords_le (p : Params) (r : Reg) : regWords p r ≤ slotWords p := by
  cases r <;> first | exact le_refl _ | exact factorWords_le p

theorem regWords_pos (p : Params) (r : Reg) : 0 < regWords p r := by
  have := p.legal
  cases r <;> simp only [regWords, slotWords, factorWords, Params.w] <;> omega

/-- The words of a register cover its width. -/
theorem regWidth_le (p : Params) (r : Reg) : regWidth p r ≤ 32 * regWords p r := by
  cases r <;> simp only [regWidth, regWords, slotWords, factorWords, Params.w] <;> omega

theorem regOfSlot_regSlot (r : Reg) : regOfSlot (regSlot r) = some r := by cases r <;> rfl

theorem regOfSlot_none_iff (n : Nat) : regOfSlot n = none ↔ 8 ≤ n := by
  constructor
  · intro h
    by_contra hlt
    interval_cases n <;> simp [regOfSlot] at h
  · intro h
    match n, h with
    | _ + 8, _ => rfl

/-- Word `j` of a register's slot: the register's word, or reserved above the register (Table 20-A). -/
theorem locate_slot (p : Params) (r : Reg) (j : Nat) (hj : j < slotWords p) :
    locate p (regFirst p r + j) = if j < regWords p r then some (.data r j) else some .reserved := by
  have h4 : regFirst p r + j - 4 = j + slotWords p * regSlot r := by unfold regFirst; rw [mul_comm]; omega
  have hge : 4 ≤ regFirst p r := by unfold regFirst; omega
  have hdiv : (regFirst p r + j - 4) / slotWords p = regSlot r := by
    rw [h4, Nat.add_mul_div_left _ _ (slotWords_pos p), Nat.div_eq_of_lt hj, zero_add]
  have hmod : (regFirst p r + j - 4) % slotWords p = j := by
    rw [h4, Nat.add_mul_mod_self_left, Nat.mod_eq_of_lt hj]
  unfold locate
  rw [if_neg (by omega), if_neg (by omega), if_neg (by omega), if_neg (by omega), hdiv, hmod, regOfSlot_regSlot]

/-- The map ends at `4 + 8·NW` (rule R31). -/
theorem locate_none_iff (p : Params) (i : Nat) : locate p i = none ↔ mapWords p ≤ i := by
  have hpos := slotWords_pos p
  have hkey : 8 ≤ (i - 4) / slotWords p ↔ 8 * slotWords p ≤ i - 4 := Nat.le_div_iff_mul_le hpos
  unfold locate mapWords
  split
  · simp; omega
  · split
    · simp; omega
    · split
      · simp; omega
      · split
        · simp; omega
        · split
          · next h => rw [regOfSlot_none_iff, hkey] at h; simp; omega
          · next r h =>
            have hn : ¬ 8 ≤ (i - 4) / slotWords p := fun h8 => by
              rw [(regOfSlot_none_iff _).2 h8] at h; cases h
            rw [hkey] at hn
            split <;> simp <;> omega

/-! ### Host accesses (rules R34, R35, R42) -/

/-- A host read answers one reply and changes nothing else, or is refused beyond the map. -/
theorem hostRead_cases (i : Nat) (s : State) :
    (∃ l, locate s.params i = some l ∧ hostRead i s = .next (recordReply (readLoc s l) s)) ∨
      (mapWords s.params ≤ i ∧ hostRead i s = .refused .beyondMap) := by
  unfold hostRead
  cases h : locate s.params i with
  | none => exact .inr ⟨(locate_none_iff _ _).1 h, rfl⟩
  | some l => exact .inl ⟨l, rfl, rfl⟩

theorem dropsWrites_iff (s : State) : dropsWrites s = true ↔ s.status.busy = true ∨ s.inReset = true := by
  unfold dropsWrites; simp

theorem dropsWrites_eq_false_iff (s : State) : dropsWrites s = false ↔ s.status.busy = false ∧ s.inReset = false := by
  unfold dropsWrites; simp

/-- A host write is dropped while busy or in reset, acts by its place otherwise, or is refused beyond the map. -/
theorem hostWrite_cases (i : Nat) (v : Word) (s : State) :
    (∃ l, locate s.params i = some l ∧
        ((dropsWrites s = true ∧ hostWrite i v s = .next s) ∨
          (dropsWrites s = false ∧ hostWrite i v s = .next (writeLoc v s l)))) ∨
      (mapWords s.params ≤ i ∧ hostWrite i v s = .refused .beyondMap) := by
  unfold hostWrite
  cases h : locate s.params i with
  | none => exact .inr ⟨(locate_none_iff _ _).1 h, rfl⟩
  | some l => exact .inl ⟨l, rfl, by cases dropsWrites s <;> simp⟩

/-- A write while idle: nothing, one operand register's word, or an issue. -/
theorem writeLoc_cases (v : Word) (s : State) (l : Loc) :
    writeLoc v s l = s ∨ writeLoc v s l = issue v s ∨
      ∃ r j, l = .data r j ∧ regWritable r = true ∧
        writeLoc v s l = setReg r (setWord (regWidth s.params r) (getReg s r) j v) s := by
  cases l with
  | cmd => exact .inr (.inl rfl)
  | status => exact .inl rfl
  | param => exact .inl rfl
  | reserved => exact .inl rfl
  | data r j =>
    unfold writeLoc
    cases h : regWritable r with
    | false => exact .inl (by simp [h])
    | true => exact .inr (.inr ⟨r, j, rfl, h, by simp [h]⟩)

/-- An answer is taken by the port exactly when its request is outstanding, and discarded otherwise. -/
theorem acceptAnswer_cases (k : Nat) (a : Answer) (s : State) :
    (s.rnd = .waiting ∧ k = s.requests ∧
        acceptAnswer k a s = { s with rnd := .answered (answerOnWires s.params a) }) ∨
      (¬ (s.rnd = .waiting ∧ k = s.requests) ∧ acceptAnswer k a s = s) := by
  unfold acceptAnswer
  split
  · next h => exact .inl ⟨h.1, h.2, rfl⟩
  · next h => exact .inr ⟨h, rfl⟩

/-! ### The meanings: everything a command can do -/

/-- A command in flight answers a next state, always: it completes (never with flags of both `XGCD` and `MRTEST`), ends in
a command error, or, for `MRTEST` on a candidate that needs draws, requests a draw or waits for one. -/
theorem exec_cases (i : Instr) (s : State) :
    ∃ t, exec i s = .next t ∧
      ((∃ r0 r1 r2 r3 f,
          (f.sx = false ∧ f.sy = false ∨ f.prime = false ∧ f.c3m4 = false ∧ f.lenk = false) ∧
          t = complete r0 r1 r2 r3 f (if i = .clr then wipeOperands s else s)) ∨
        (∃ e, e ≠ .illegalCommand ∧ t = commandError e s) ∨
        (i = .mrtest ∧ mrWithoutDraws s.opa = none ∧
          ((s.rnd = .idle ∧ t = requestDraw s) ∨ (s.rnd = .waiting ∧ t = s) ∨
            (∃ w, s.rnd = .answered (.ok w) ∧ s.round + 1 < s.params.rounds ∧
              t = requestDraw (countRound s))))) := by
  cases i with
  | modsqr =>
    unfold exec execModsqr
    dsimp only
    split
    · exact ⟨_, rfl, .inr (.inl ⟨.invalidModulus, by decide, rfl⟩)⟩
    · exact ⟨_, rfl, .inl ⟨_, _, _, _, _, .inl ⟨rfl, rfl⟩, rfl⟩⟩
  | sqrtcrt =>
    unfold exec execSqrtcrt
    dsimp only
    split
    · exact ⟨_, rfl, .inl ⟨_, _, _, _, _, .inl ⟨rfl, rfl⟩, rfl⟩⟩
    · exact ⟨_, rfl, .inr (.inl ⟨.invalidModulus, by decide, rfl⟩)⟩
  | xgcd => exact ⟨_, rfl, .inl ⟨_, _, _, _, _, .inr ⟨rfl, rfl, rfl⟩, rfl⟩⟩
  | clr => exact ⟨_, rfl, .inl ⟨_, _, _, _, _, .inl ⟨rfl, rfl⟩, rfl⟩⟩
  | mrtest =>
    unfold exec execMrtest mrtestOperand
    cases h : mrWithoutDraws s.opa with
    | some b => exact ⟨_, rfl, .inl ⟨_, _, _, _, _, .inl ⟨rfl, rfl⟩, rfl⟩⟩
    | none =>
      cases hr : s.rnd with
      | idle => exact ⟨_, rfl, .inr (.inr ⟨rfl, rfl, .inl ⟨rfl, rfl⟩⟩)⟩
      | waiting => exact ⟨_, rfl, .inr (.inr ⟨rfl, rfl, .inr (.inl ⟨rfl, rfl⟩)⟩)⟩
      | answered a =>
        cases a with
        | fail => exact ⟨_, rfl, .inr (.inl ⟨.randomSourceFailure, by decide, rfl⟩)⟩
        | ok w =>
          refine ⟨mrtestRound w s, rfl, ?_⟩
          unfold mrtestRound
          split
          · split
            · next hlt => exact .inr (.inr ⟨rfl, rfl, .inr (.inr ⟨w, rfl, hlt, rfl⟩)⟩)
            · exact .inl ⟨_, _, _, _, _, .inl ⟨rfl, rfl⟩, rfl⟩
          · exact .inl ⟨_, _, _, _, _, .inl ⟨rfl, rfl⟩, rfl⟩

/-! ### The step, by the turn it takes -/

theorem step_of_turns_nil (s : State) (h : s.turns = []) : step s = blockTurn s := by
  unfold step nextTurn
  rw [h]
  have : dropTurn s = s := by unfold dropTurn; rw [h]; cases s; simp_all
  simp [this]

theorem step_of_turns_cons (s : State) (t : Turn) (rest : List Turn) (h : s.turns = t :: rest) :
    step s = takeTurn t (dropTurn s) := by
  unfold step nextTurn
  rw [h]

theorem blockTurn_idle (s : State) (h : s.command = none) : blockTurn s = .next s := by
  unfold blockTurn; rw [h]

theorem blockTurn_ok (s : State) (w : Word) (i : Instr) (h : s.command = some w) (hd : decode w = .ok i) :
    blockTurn s = exec i s := by
  unfold blockTurn; rw [h]; simp [hd]

theorem blockTurn_illegal (s : State) (w : Word) (e : Illegal) (h : s.command = some w) (hd : decode w = .error e) :
    blockTurn s = .next (commandError .illegalCommand s) := by
  unfold blockTurn; rw [h]; simp [hd]

/-- The block's turn always answers a next state. -/
theorem blockTurn_next (s : State) : ∃ t, blockTurn s = .next t := by
  unfold blockTurn
  split
  · exact ⟨_, rfl⟩
  · split
    · next i _ => obtain ⟨t, h, _⟩ := exec_cases i s; exact ⟨t, h⟩
    · exact ⟨_, rfl⟩

end Sys2Proof.Machine
end

