-- ==== Sys2Proof/Laws/PerInstr.lean ====
section
/-! SUPPORT. Statements made of every instruction as syntax, one lemma per constructor. -/

namespace Sys2Proof.Laws

/-- The word of the instruction, numbered as the opcode table numbers it, is read back as the instruction. -/
def TableWord.Statement (i : Instr) : Prop :=
  i.wellFormed = true ∧ decodeTableWord 32 (encode i).toNat = some i

theorem TableWord.modsqr : TableWord.Statement .modsqr := by unfold TableWord.Statement; decide
theorem TableWord.sqrtcrt : TableWord.Statement .sqrtcrt := by unfold TableWord.Statement; decide
theorem TableWord.xgcd : TableWord.Statement .xgcd := by unfold TableWord.Statement; decide
theorem TableWord.mrtest : TableWord.Statement .mrtest := by unfold TableWord.Statement; decide
theorem TableWord.clr : TableWord.Statement .clr := by unfold TableWord.Statement; decide

end Sys2Proof.Laws
end

