-- ==== Sys2Proof/Laws/Run.lean ====
section
/-! SUPPORT. Runs of the machine: a run of `n + 1` steps is a step and a run of `n`; runs compose; and `runSteps` is the
host's own run of this machine. -/

namespace Sys2Proof.Machine

@[simp] theorem runSteps_zero (s : State) : runSteps 0 s = .next s := rfl

theorem runSteps_succ {s t : State} (n : Nat) (h : step s = .next t) : runSteps (n + 1) s = runSteps n t := by
  rw [runSteps, h]

theorem runSteps_add {s t : State} (m n : Nat) (h : runSteps m s = .next t) :
    runSteps (m + n) s = runSteps n t := by
  induction m generalizing s with
  | zero => cases h; rw [Nat.zero_add]
  | succ m ih =>
    have hsplit : m + 1 + n = m + n + 1 := by omega
    rw [hsplit]
    cases hs : step s with
    | next u => rw [runSteps_succ m hs] at h; rw [runSteps_succ _ hs]; exact ih h
    | fault r => rw [runSteps, hs] at h; cases h
    | refused r => rw [runSteps, hs] at h; cases h

theorem hostRun_next (M : Host.Core) (s t : M.State) (n : Nat) (h : M.step s = .next t) :
    M.run (n + 1) s = M.run n t := by
  rw [Host.Core.run, h]

theorem hostRun_fault (M : Host.Core) (s : M.State) (r : M.Fault) (n : Nat) (h : M.step s = .fault r) :
    M.run (n + 1) s = .fault r := by
  rw [Host.Core.run, h]

theorem hostRun_refused (M : Host.Core) (s : M.State) (r : M.Refusal) (n : Nat) (h : M.step s = .refused r) :
    M.run (n + 1) s = .refused r := by
  rw [Host.Core.run, h]

theorem runSteps_eq_hostRun : ∀ (n : Nat) (s : State), runSteps n s = Host.Core.run Sys2Proof.core n s := by
  intro n
  induction n with
  | zero => intro s; rfl
  | succ n ih =>
    intro s
    cases hs : step s with
    | next t => exact (runSteps_succ n hs).trans ((ih t).trans (hostRun_next Sys2Proof.core s t n hs).symm)
    | fault r => rw [runSteps, hs]; exact (hostRun_fault Sys2Proof.core s r n hs).symm
    | refused r => rw [runSteps, hs]; exact (hostRun_refused Sys2Proof.core s r n hs).symm

end Sys2Proof.Machine
end

