-- ==== Sys2Proof/Laws/Step.lean ====
section
/-! SUPPORT. Everything a step can do, said once: the inversion lemmas of the step and of the block's turn, and the map
read backwards. -/

namespace Sys2Proof.Machine

/-- The map read backwards: a data word of the map is word `j` of its register (Table 20-A). -/
theorem locate_data (p : Params) (i : Nat) (r : Reg) (j : Nat) (h : locate p i = some (.data r j)) :
    j < regWords p r ∧ i = regFirst p r + j := by
  unfold locate at h
  split at h
  · cases h
  · split at h
    · cases h
    · split at h
      · cases h
      · split at h
        · cases h
        · split at h
          · cases h
          · next q hq =>
            split at h
            · next hlt =>
              cases h
              have hslot : (i - 4) / slotWords p = regSlot r := by
                have hn : ¬ 8 ≤ (i - 4) / slotWords p := fun h8 => by
                  rw [(regOfSlot_none_iff _).2 h8] at hq; cases hq
                generalize (i - 4) / slotWords p = n at hq hn
                interval_cases n <;> cases hq <;> rfl
              have hdm := Nat.div_add_mod (i - 4) (slotWords p)
              rw [hslot, mul_comm] at hdm
              exact ⟨hlt, by unfold regFirst; omega⟩
            · cases h

/-- `CMD` is word 0 only. -/
theorem locate_cmd (p : Params) (i : Nat) (h : locate p i = some .cmd) : i = 0 := by
  unfold locate at h
  split at h
  · assumption
  · split at h
    · cases h
    · split at h
      · cases h
      · split at h
        · cases h
        · split at h
          · cases h
          · split at h <;> cases h

/-- The block's turn: it idles, completes an illegal word with its error, or runs the decoded command. -/
theorem blockTurn_cases {s t : State} (h : blockTurn s = .next t) :
    (s.command = none ∧ t = s) ∨
      (∃ w e, s.command = some w ∧ decode w = .error e ∧ t = commandError .illegalCommand s) ∨
      (∃ w i, s.command = some w ∧ decode w = .ok i ∧ exec i s = .next t) := by
  cases hc : s.command with
  | none => rw [blockTurn_idle s hc] at h; cases h; exact .inl ⟨rfl, rfl⟩
  | some w =>
    cases hd : decode w with
    | error e => rw [blockTurn_illegal s w e hc hd] at h; cases h; exact .inr (.inl ⟨w, e, rfl, hd, rfl⟩)
    | ok i => rw [blockTurn_ok s w i hc hd] at h; exact .inr (.inr ⟨w, i, rfl, hd, h⟩)

/-- Everything a step that answers a next state can do. -/
theorem step_cases {s t : State} (h : step s = .next t) :
    (BlockMoves s ∧ blockTurn (dropTurn s) = .next t) ∨
      (∃ addr size l, s.turns.head? = some (.read addr size) ∧ oneAlignedWord addr size = true ∧
        locate s.params (addr / 4) = some l ∧
        t = recordReply (readLoc (dropTurn s) l) (dropTurn s)) ∨
      (∃ addr size v l, s.turns.head? = some (.write addr size v) ∧ oneAlignedWord addr size = true ∧
        locate s.params (addr / 4) = some l ∧
        ((dropsWrites s = true ∧ t = dropTurn s) ∨ (dropsWrites s = false ∧ t = writeLoc v (dropTurn s) l))) ∨
      (∃ k a, s.turns.head? = some (.answer k a) ∧ t = acceptAnswer k a (dropTurn s)) ∨
      (s.turns.head? = some .reset ∧ t = blockReset (dropTurn s)) ∨
      (s.turns.head? = some .release ∧ t = releaseReset (dropTurn s)) := by
  cases ht : s.turns with
  | nil =>
    rw [step_of_turns_nil s ht] at h
    refine .inl ⟨.inl ht, ?_⟩
    have hs : dropTurn s = s := by unfold dropTurn; rw [ht]; cases s; simp_all
    rw [hs]; exact h
  | cons u rest =>
    rw [step_of_turns_cons s u rest ht] at h
    cases u with
    | block => exact .inl ⟨.inr (by rw [ht]; rfl), h⟩
    | answer k a => cases h; exact .inr (.inr (.inr (.inl ⟨k, a, rfl, rfl⟩)))
    | reset => cases h; exact .inr (.inr (.inr (.inr (.inl ⟨rfl, rfl⟩))))
    | release => cases h; exact .inr (.inr (.inr (.inr (.inr ⟨rfl, rfl⟩))))
    | read addr size =>
      simp only [takeTurn] at h
      split at h
      · next ho =>
        rcases hostRead_cases (addr / 4) (dropTurn s) with ⟨l, hl, hr⟩ | ⟨_, hr⟩
        · rw [hr] at h; cases h; exact .inr (.inl ⟨addr, size, l, rfl, ho, hl, rfl⟩)
        · rw [hr] at h; cases h
      · cases h
    | write addr size v =>
      simp only [takeTurn] at h
      split at h
      · next ho =>
        rcases hostWrite_cases (addr / 4) v (dropTurn s) with ⟨l, hl, ⟨hb, hr⟩ | ⟨hb, hr⟩⟩ | ⟨_, hr⟩
        · rw [hr] at h; cases h; exact .inr (.inr (.inl ⟨addr, size, v, l, rfl, ho, hl, .inl ⟨hb, rfl⟩⟩))
        · rw [hr] at h; cases h; exact .inr (.inr (.inl ⟨addr, size, v, l, rfl, ho, hl, .inr ⟨hb, rfl⟩⟩))
        · rw [hr] at h; cases h
      · cases h

end Sys2Proof.Machine
end

