-- ==== Sys2Proof/Tests/Slice0.lean ====
section
/-! SUPPORT. The model's own tests. Expected values come from spec/95_test_vectors.md (the vector's name stands in the
test's comment) or from the encoding tables of 30_encoding.md. After them, one witness per hypothesis list of the
obligations: a concrete state that meets all of its hypotheses. -/

namespace Sys2Proof.Tests

open Sys2Proof.Machine

/-! ### Helpers -/

/-- Instance T4 of spec/95: `K = 4`, `MR_ROUNDS = 2`. -/
def t4 : Params := ⟨4, 2, by decide⟩

/-- Instance T5 of spec/95: `K = 5`, `MR_ROUNDS = 2`. -/
def t5 : Params := ⟨5, 2, by decide⟩

/-- A reset instance with its operand registers written. -/
def withOperands (p : Params) (a b x y : Nat) : State :=
  { State.resetOf p with opa := a, opb := b, opp := x, opq := y }

/-- The same with a command issued. -/
def inFlight (i : Instr) (p : Params) (a b x y : Nat) : State := issue (encode i) (withOperands p a b x y)

/-- A state with a schedule. -/
def scheduled (s : State) (ts : List Turn) : State := { s with turns := ts }

/-- An `MRTEST` in flight on `n`, with the port to `rnd` and the rounds passed. -/
def testing (p : Params) (n : Nat) (port : RndPort) (round : Nat) : State :=
  { inFlight .mrtest p n 0 0 0 with rnd := port, round := round, requests := round + 1 }

/-- What the host sees of an outcome: the four results and `STATUS`. -/
def seen (o : Host.Outcome State Fault Refusal) : Option (List Nat × Word) :=
  match o with
  | .next t => some (results t, statusWord t.status)
  | .fault _ => none
  | .refused _ => none

/-! ### Well-formedness: an ill-formed term for each check -/

theorem test_k_below_range : Params.ofNats 1 50 = none := by decide
theorem test_k_above_range : Params.ofNats 65536 50 = none := by decide
theorem test_rounds_zero : Params.ofNats 512 0 = none := by decide
theorem test_rounds_above_range : Params.ofNats 512 256 = none := by decide
theorem test_default_in_range : Params.inRange 512 50 = true ∧ Params.inRange 1 50 = false := by decide
theorem test_reserved_bits_ill_formed : FormatC.wellFormed ⟨1#8, 1#24⟩ = false := by decide
theorem test_opcode_zero_ill_formed : FormatC.wellFormed ⟨0#8, 0#24⟩ = false := by decide
theorem test_opcode_six_ill_formed : FormatC.wellFormed ⟨6#8, 0#24⟩ = false := by decide
theorem test_opcode_five_well_formed : FormatC.wellFormed ⟨5#8, 0#24⟩ = true := by decide
theorem test_narrow_access_ill_formed : turnOk t4 (.read 4 2) = false := by decide
theorem test_misaligned_access_ill_formed : turnOk t4 (.write 6 4 0#32) = false := by decide
theorem test_access_beyond_map_ill_formed : turnOk t4 (.read 48 4) = false ∧ turnOk t4 (.read 44 4) = true := by decide

/-! ### Decoding: words written out bit by bit from Tables 30-A and 30-B -/

theorem test_decode_modsqr : decode 0b00000000000000000000000000000001#32 = .ok .modsqr := by decide
theorem test_decode_sqrtcrt : decode 0b00000000000000000000000000000010#32 = .ok .sqrtcrt := by decide
theorem test_decode_xgcd : decode 0b00000000000000000000000000000011#32 = .ok .xgcd := by decide
theorem test_decode_mrtest : decode 0b00000000000000000000000000000100#32 = .ok .mrtest := by decide
theorem test_decode_clr : decode 0b00000000000000000000000000000101#32 = .ok .clr := by decide
/-- V-I1, V-I3. -/
theorem test_decode_illegal_opcodes :
    decode 0x00000000#32 = .error (.opcode 0#8) ∧ decode 0x000000FF#32 = .error (.opcode 255#8) := by decide
/-- V-I4, V-I5. -/
theorem test_decode_reserved_bits :
    decode 0x00000101#32 = .error (.reservedBits 1#24) ∧
    decode 0x80000002#32 = .error (.reservedBits 0x800000#24) := by decide
theorem test_fetch_runs_command :
    seen (step (State.reset.withFetchWord 32 3)) = some ([1, 0, 0, 0], 0x00000002#32) := by decide

/-! ### Instructions -/

/-- V-Q1, the source's example. -/
theorem test_modsqr_example : seen (exec .modsqr (withOperands t4 5 77 0 0)) = some ([25, 0, 0, 0], 0x2#32) := by decide
/-- V-Q16. -/
theorem test_modsqr_zero_modulus : seen (exec .modsqr (withOperands t4 5 0 0 0)) = some ([0, 0, 0, 0], 0x26#32) := by decide
/-- V-S1, the source's example. -/
theorem test_sqrtcrt_example :
    seen (exec .sqrtcrt (withOperands t4 25 0 7 11)) = some ([16, 5, 72, 61], 0x2#32) := by decide +kernel
/-- V-S7, a non-residue. -/
theorem test_sqrtcrt_nonresidue :
    seen (exec .sqrtcrt (withOperands t4 2 0 7 11)) = some ([74, 52, 25, 3], 0x2#32) := by decide +kernel
/-- V-X1, the source's example. -/
theorem test_xgcd_example : seen (exec .xgcd (withOperands t4 7 11 0 0)) = some ([3, 2, 1, 0], 0x102#32) := by decide +kernel
/-- V-X3, not coprime. -/
theorem test_xgcd_not_coprime :
    seen (exec .xgcd (withOperands t4 240 46 0 0)) = some ([9, 47, 2, 0], 0x102#32) := by decide +kernel
/-- V-M15's last round: draw 8, base 2, the second round passed. -/
theorem test_mrtest_last_round :
    seen (exec .mrtest (testing t4 11 (.answered (.ok 8)) 1)) = some ([0, 0, 0, 0], 0x1C02#32) := by decide +kernel
/-- V-M14: draw 6 wraps to base 2, a witness of 9. -/
theorem test_mrtest_composite :
    seen (exec .mrtest (testing t4 9 (.answered (.ok 6)) 0)) = some ([0, 0, 0, 0], 0x1002#32) := by decide +kernel
/-- V-C1. -/
theorem test_clr : seen (exec .clr (withOperands t4 25 0 7 11)) = some ([0, 0, 0, 0], 0x2#32) := by decide
/-- V-S23, the multi-word vector on the default instance. -/
theorem test_sqrtcrt_multi_word :
    seen (exec .sqrtcrt (withOperands Params.default
      0x12553AAA063C2BA7336F0D8323C90C26C4E646CE77E622064EEEE9EB30C 0 (2 ^ 127 - 1) (2 ^ 107 - 1))) =
    some ([0x526162696E2063727970746F73797374656D203139373921,
      0x111D99814D16AE5C494B2935911068F896CD95662E8200491D285614DD8,
      0x2EE2667EB2E951A3B6B4D6CA6EE79706E9326A99D17DFFB6E2D7A9EB229,
      0x3FFFFFFFFFFAD9E9D9691DF9C8D068F83908C868C8B9A92DFCEC6C8C6E0], 0x2#32) := by decide +kernel
/-- V-A6: one word changes 32 bits only. -/
theorem test_write_one_word : setWord 1024 5 1 1#32 = 2 ^ 32 + 5 := by decide +kernel
/-- V-A2: the bits above the register's width are dropped. -/
theorem test_write_above_width : setWord 4 0 0 0xFFFFFFFF#32 = 15 := by decide
/-- Rule R21: the default `PARAM`; instance T4's from spec/95. -/
theorem test_param_words : paramWord Params.default = 0x01320200#32 ∧ paramWord t4 = 0x01020004#32 := by decide
/-- Table 20-A's default byte offsets: `OPP` at 0x110, reserved at 0x150, `RES3` ends below 0x410. -/
theorem test_default_map :
    locate Params.default (0x110 / 4) = some (.data .opp 0) ∧ locate Params.default (0x150 / 4) = some .reserved ∧
    locate Params.default (0x40C / 4) = some (.data .res3 31) ∧ locate Params.default (0x410 / 4) = none := by decide
/-- Rule R99: unsigned big-endian. -/
theorem test_message_encoding : messageInt [0x52#8, 0x61#8] = 0x5261 := by decide
/-- A host with its script at line 0, on instance T4 after reset. -/
def fresh (p : Params) (as : List Answer) (ds ms : List Nat) : Session := ⟨State.resetOf p, [], 0, as, ds, ms⟩
/-- What a script ends in: its stop, or the values of some variables. -/
def outcome (vs : List String) (o : Except ScriptStop Session) : Except ScriptStop (List (Option Int)) :=
  o.map fun x => vs.map fun v => lookupVar v x.vars
/-- Program P2, first part, with the host's check of the identity. -/
theorem test_script_extgcd :
    outcome ["g", "x", "y", "ok"] (runScript 20
      (extgcdLines "g" "x" "y" (.lit 7) (.lit 11) ++
        [.assign "ok" (.eq (.add (.mul (.lit 7) (.var "x")) (.mul (.lit 11) (.var "y"))) (.var "g"))])
      (fresh t4 [] [] [])) = .ok [some 1, some (-3), some 2, some 1] := by decide +kernel
/-- Program P3, the search for `p`: 21, 29 and 19 are drawn, 19 is accepted; the block moves between the accesses. -/
theorem test_script_genprime :
    outcome ["n", "status"] (runScript 40 (genPrimeLines 5 "n")
      (fresh t5 [.ok 0, .ok 0, .ok 1, .ok 0, .ok 1] [21, 29, 19] [0, 1, 2])) =
    .ok [some 19, some 0x1C02] := by decide +kernel
/-- Rule R95: a failed draw of the block is fatal. -/
theorem test_script_genprime_fatal :
    outcome [] (runScript 40 (genPrimeLines 5 "n") (fresh t5 [.fail] [19] [])) = .error .fatal := by decide +kernel
/-- U15: with the check, an equal `q` is drawn again. -/
theorem test_script_keygen_redraws :
    outcome ["N"] (runScript 80 (keyGenLines 5 "N" "p" "q" true)
      (fresh t5 [.ok 0, .ok 1, .ok 0, .ok 1, .ok 3, .ok 18] [19, 19, 23] [])) = .ok [some 437] := by decide +kernel
/-- Program P1's `fail` label stands nowhere; a script variable tested by `IF`; `status` before any `WAIT`. -/
theorem test_script_ifs :
    outcome [] (runScript 9 [.cmd .modsqr, .wait, .ifGoto (.eq (.field .errcode) (.lit 2)) "fail"] (fresh t4 [] [] [])) =
      .error (.noSuchLabel "fail") ∧
    outcome ["x"] (runScript 9 [.assign "x" (.lit 1), .ifGoto (.var "x") "on", .assign "x" (.lit 2), .label "on"]
      (fresh t4 [] [] [])) = .ok [some 1] ∧
    outcome [] (runScript 9 [.ifGoto (.field .err) "on", .label "on"] (fresh t4 [] [] [])) = .error .unassigned := by
  decide +kernel
/-- Program P4, step 6: before completion a write is dropped and a read gives 0; when the block moves earlier, not. -/
theorem test_script_busy_window :
    outcome ["x"] (runScript 9 [.wr .opa (.lit 5), .cmd .xgcd, .rd "x" (.data .opa)] (fresh t4 [] [] [])) =
      .ok [some 0] ∧
    outcome ["x"] (runScript 9 [.wr .opa (.lit 5), .cmd .xgcd, .rd "x" (.data .opa)] (fresh t4 [] [] [0, 0, 1])) =
      .ok [some 5] := by decide +kernel

/-! ### Reset (V-R2, and rule R118 while it is asserted) -/

theorem test_reset_abandons_command :
    seen (step (scheduled (inFlight .sqrtcrt t4 25 0 7 11) [.reset])) = some ([0, 0, 0, 0], 0x0#32) := by decide
theorem test_write_in_reset_is_dropped :
    step (scheduled (blockReset (State.resetOf t4)) [.write 16 4 9#32]) = .next (blockReset (State.resetOf t4)) := by
  rfl

/-! ### Witnesses: the hypotheses of each obligation can be met -/

theorem fit_withOperands (p : Params) (a b x y : Nat) (ha : a < 2 ^ p.w) (hb : b < 2 ^ p.w) (hx : x < 2 ^ p.k)
    (hy : y < 2 ^ p.k) : RegistersFit (withOperands p a b x y) := by
  intro r
  cases r with
  | opa => exact ha
  | opb => exact hb
  | opp => exact hx
  | opq => exact hy
  | res0 => exact Nat.two_pow_pos _
  | res1 => exact Nat.two_pow_pos _
  | res2 => exact Nat.two_pow_pos _
  | res3 => exact Nat.two_pow_pos _

theorem witness_DecodeOfEncode : ∃ i : Instr, i.wellFormed = true := ⟨.modsqr, by decide⟩

theorem witness_IllegalWordCompletesWithError :
    ∃ (s : State) (w : Word) (rest : List Turn),
      w ≠ 0x00000001#32 ∧ w ≠ 0x00000002#32 ∧ w ≠ 0x00000003#32 ∧ w ≠ 0x00000004#32 ∧ w ≠ 0x00000005#32 ∧
      s.status.busy = false ∧ s.inReset = false ∧ s.turns = .write 0 4 w :: .block :: rest :=
  ⟨scheduled (withOperands t4 7 11 0 0) [.write 0 4 0x101#32, .block], 0x101#32, [], by decide⟩

theorem witness_StepRunsDecodedCommand :
    ∃ (s : State) (w : Word) (i : Instr) (rest : List Turn), i.wellFormed = true ∧ s.command = some w ∧
      decode w = .ok i ∧ s.turns = .block :: rest :=
  ⟨scheduled (inFlight .modsqr t4 5 77 0 0) [.block], encode .modsqr, .modsqr, [], by decide⟩

theorem witness_StepRunsDecodedCommand_nothing_scheduled :
    ∃ (s : State) (w : Word) (i : Instr), i.wellFormed = true ∧ s.command = some w ∧ decode w = .ok i ∧ s.turns = [] :=
  ⟨inFlight .clr t4 5 77 0 0, encode .clr, .clr, by decide⟩

theorem witness_IdleBlockChangesNothing :
    ∃ (s : State) (rest : List Turn), s.command = none ∧ s.turns = .block :: rest :=
  ⟨scheduled (State.resetOf t4) [.block], [], by decide⟩

theorem witness_IdleBlockChangesNothing_nothing_scheduled : ∃ s : State, s.command = none ∧ s.turns = [] :=
  ⟨State.reset, by decide⟩

theorem witness_CmdRegisterIsATrigger_idle :
    ∃ (s : State) (v : Word) (rest : List Turn), s.turns = .write 0 4 v :: rest ∧ s.status.busy = false ∧
      s.inReset = false :=
  ⟨scheduled (withOperands t4 5 77 0 0) [.write 0 4 1#32], 1#32, [], by decide⟩

theorem witness_CmdRegisterIsATrigger_busy :
    ∃ (s : State) (v : Word) (rest : List Turn), s.turns = .write 0 4 v :: rest ∧ s.status.busy = true :=
  ⟨scheduled (inFlight .mrtest t4 11 0 0 0) [.write 0 4 5#32], 5#32, [], by decide⟩

theorem witness_CmdRegisterIsATrigger_in_reset :
    ∃ (s : State) (v : Word) (rest : List Turn), s.turns = .write 0 4 v :: rest ∧ s.inReset = true :=
  ⟨scheduled (blockReset (State.resetOf t4)) [.write 0 4 5#32], 5#32, [], by decide⟩

theorem witness_CmdRegisterIsATrigger_read :
    ∃ (s : State) (rest : List Turn), s.turns = .read 0 4 :: rest :=
  ⟨scheduled (State.resetOf t4) [.read 0 4], [], by decide⟩

theorem witness_StepStopsOnlyOnBadAccess :
    step (scheduled State.reset [.read 1040 4]) = .refused .beyondMap ∧
    step (scheduled State.reset [.read 2 2]) = .refused .notOneAlignedWord ∧
    turnOk Params.default (.read 1036 4) = true := ⟨by rfl, by rfl, by decide⟩

theorem witness_ModsqrSquaresModuloN : ∃ s : State, 1 ≤ s.opb ∧ RegistersFit s :=
  ⟨withOperands t4 255 1 0 0, by decide, fit_withOperands _ _ _ _ _ (by decide) (by decide) (by decide) (by decide)⟩

theorem witness_ModsqrZeroModulusIsInvalid : (∃ s : State, s.opb = 0) ∧ ∃ s : State, s.opb = 1 :=
  ⟨⟨State.reset, by decide⟩, ⟨withOperands t4 255 1 0 0, by decide⟩⟩

theorem witness_ModsqrWrapsSilently : ∃ s : State, 1 ≤ s.opb ∧ s.opb ≤ s.opa := ⟨withOperands t4 77 77 0 0, by decide⟩

theorem witness_ModsqrCornerCases :
    ∃ s t : State, 1 ≤ s.opb ∧ exec .modsqr s = .next t ∧ 2 ≤ s.opb ∧ s.opa = s.opb - 1 ∧ s.opa ≤ s.opb :=
  ⟨withOperands t4 1 2 0 0, _, by decide, rfl, by decide, by decide, by decide⟩

theorem witness_ModsqrCornerCases_others :
    ∃ s s' s'' : State, 1 ≤ s.opb ∧ s.opa = 0 ∧ 1 ≤ s'.opb ∧ s'.opa = 1 ∧ 1 ≤ s''.opb ∧ s''.opa = s''.opb :=
  ⟨withOperands t4 0 1 0 0, withOperands t4 1 1 0 0, withOperands t4 255 255 0 0, by decide⟩

theorem witness_SqrtcrtWritesFourCandidates :
    ∃ (s : State) (g r t : Nat) (a b : Int), s.opp % 4 = 3 ∧ s.opq % 4 = 3 ∧ egcd s.opp s.opq = (g, a, b) ∧
      r = s.opa ^ ((s.opp + 1) / 4) % s.opp ∧ t = s.opa ^ ((s.opq + 1) / 4) % s.opq :=
  ⟨withOperands t4 25 0 7 11, 1, 2, 5, -3, 2, by decide +kernel⟩

theorem witness_SqrtcrtChecksFactorsModFour :
    (∃ s : State, s.opp % 4 ≠ 3 ∨ s.opq % 4 ≠ 3) ∧ (∃ s : State, s.opp = 0 ∨ s.opq = 0) ∧
    ∃ s : State, s.opp % 4 = 3 ∧ s.opq % 4 = 3 :=
  ⟨⟨withOperands t4 25 0 5 11, by decide⟩, ⟨State.reset, by decide⟩, ⟨withOperands t4 25 0 3 3, by decide⟩⟩

theorem witness_SqrtcrtCandidatesAreSquareRoots :
    ∃ s : State, s.opp.Prime ∧ s.opq.Prime ∧ s.opp ≠ s.opq ∧ s.opp % 4 = 3 ∧ s.opq % 4 = 3 ∧
      (∃ y, y * y % s.opp = s.opa % s.opp) ∧ ∃ z, z * z % s.opq = s.opa % s.opq :=
  ⟨withOperands t4 25 0 7 11, show Nat.Prime 7 by norm_num, show Nat.Prime 11 by norm_num, by decide, by decide,
    by decide, ⟨5, by decide⟩, ⟨5, by decide⟩⟩

theorem witness_DecryptOfEncryptFindsPlaintext :
    ∃ s s' : State, s'.opp.Prime ∧ s'.opq.Prime ∧ s'.opp ≠ s'.opq ∧ s'.opp % 4 = 3 ∧ s'.opq % 4 = 3 ∧
      s.opb = s'.opp * s'.opq ∧ s.opa < s.opb ∧ s'.opa = s.opa * s.opa % s.opb :=
  ⟨withOperands t4 5 77 0 0, withOperands t4 25 0 7 11, show Nat.Prime 7 by norm_num, show Nat.Prime 11 by norm_num,
    by decide⟩

theorem witness_SqrtcrtCandidateResidues :
    ∃ (s t : State) (r u : Nat), s.opp.Prime ∧ s.opq.Prime ∧ s.opp ≠ s.opq ∧ s.opp % 4 = 3 ∧ s.opq % 4 = 3 ∧
      r = s.opa ^ ((s.opp + 1) / 4) % s.opp ∧ u = s.opa ^ ((s.opq + 1) / 4) % s.opq ∧ exec .sqrtcrt s = .next t :=
  ⟨withOperands t4 25 0 7 11, _, 2, 5, show Nat.Prime 7 by norm_num, show Nat.Prime 11 by norm_num, by decide, by decide,
    by decide, by decide, by decide, rfl⟩

theorem witness_SqrtcrtNonResidueIsNotDetected :
    ∃ s : State, s.opp.Prime ∧ s.opq.Prime ∧ s.opp ≠ s.opq ∧ s.opp % 4 = 3 ∧ s.opq % 4 = 3 ∧
      ¬ ∃ y, y * y % s.opp = s.opa % s.opp := by
  refine ⟨withOperands t4 3 0 7 11, show Nat.Prime 7 by norm_num, show Nat.Prime 11 by norm_num, by decide, by decide,
    by decide, ?_⟩
  rintro ⟨y, hy⟩
  have hy' : y * y % 7 = 3 := hy
  have hlt : y % 7 < 7 := Nat.mod_lt _ (by decide)
  rw [Nat.mul_mod] at hy'
  interval_cases y % 7 <;> simp at hy'

theorem witness_SqrtcrtIndependentOfBezoutPair :
    ∃ (s t : State) (a b : Int) (r u : Nat), s.opp % 4 = 3 ∧ s.opq % 4 = 3 ∧ a * s.opp + b * s.opq = 1 ∧
      r = s.opa ^ ((s.opp + 1) / 4) % s.opp ∧ u = s.opa ^ ((s.opq + 1) / 4) % s.opq ∧ exec .sqrtcrt s = .next t :=
  ⟨withOperands t4 25 0 7 11, _, 8, -5, 2, 5, by decide, by decide, by decide, by decide, by decide, rfl⟩

theorem witness_SqrtcrtCoincidingCandidates :
    ∃ s t : State, s.opp % 4 = 3 ∧ s.opq % 4 = 3 ∧ exec .sqrtcrt s = .next t ∧ s.opp.Prime ∧ s.opq.Prime ∧
      s.opp ≠ s.opq ∧ s.opa % s.opp ≠ 0 ∧ s.opa % s.opq ≠ 0 ∧ Nat.Coprime s.opp s.opq ∧ s.opa = 1 :=
  ⟨withOperands t4 1 0 7 11, _, by decide, by decide, rfl, show Nat.Prime 7 by norm_num, show Nat.Prime 11 by norm_num,
    by decide⟩

theorem witness_SqrtcrtCoincidingCandidates_zero :
    ∃ s s' s'' : State, (s.opp % 4 = 3 ∧ s.opq % 4 = 3 ∧ s.opa % (s.opp * s.opq) = 0) ∧
      (s'.opp % 4 = 3 ∧ s'.opq % 4 = 3 ∧ s'.opa % s'.opp = 0) ∧
      (s''.opp % 4 = 3 ∧ s''.opq % 4 = 3 ∧ s''.opa % s''.opq = 0) :=
  ⟨withOperands t4 77 0 7 11, withOperands t4 49 0 7 11, withOperands t4 44 0 7 11, by decide⟩

theorem witness_XgcdWritesSignAndMagnitude :
    ∃ (s : State) (g : Nat) (x y : Int), egcd s.opa s.opb = (g, x, y) :=
  ⟨withOperands t4 7 11 0 0, 1, -3, 2, by decide +kernel⟩

theorem witness_XgcdZeroOperands : (∃ v : Nat, 0 < v) ∧ ∃ s : State, s.opa = 0 ∨ s.opb = 0 :=
  ⟨⟨1, by decide⟩, ⟨withOperands t4 12 0 0 0, by decide⟩⟩

theorem witness_XgcdCoefficientsAreBounded :
    ∃ (u v g : Nat) (x y : Int) (p : Params), egcd u v = (g, x, y) ∧ 1 ≤ u ∧ 1 ≤ v ∧ u < 2 ^ p.w ∧ v < 2 ^ p.w ∧
      2 ≤ u ∧ 2 ≤ v ∧ Nat.Coprime u v :=
  ⟨255, 254, 1, 1, -1, t4, by decide +kernel⟩

theorem witness_XgcdCoefficientsAreBounded_zero :
    ∃ (u v g : Nat) (x y : Int), egcd u v = (g, x, y) ∧ (u = 0 ∨ v = 0) := ⟨0, 0, 0, 1, 0, by decide⟩

theorem witness_XgcdCornerCases :
    (∃ u : Nat, 0 < u) ∧ (∃ u v : Nat, 0 < v ∧ v ∣ u) ∧ (∃ u v : Nat, u ∣ v ∧ u < v ∧ 0 < u) ∧ ∃ u v : Nat, u ≠ v :=
  ⟨⟨1, by decide⟩, ⟨6, 3, by decide⟩, ⟨1, 2, by decide⟩, ⟨0, 1, by decide⟩⟩

theorem witness_MrtestSmallAndEvenNeedNoDraw :
    ∃ s s' : State, (s.opa < 5 ∨ s.opa % 2 = 0) ∧ s.opa = 4 ∧ (s'.opa < 5 ∨ s'.opa % 2 = 0) ∧ s'.opa = 254 :=
  ⟨withOperands t4 4 0 0 0, withOperands t4 254 0 0 0, by decide⟩

theorem witness_MrtestRequestsThenWaits :
    ∃ s s' : State, (5 ≤ s.opa ∧ s.opa % 2 = 1 ∧ s.rnd = .idle) ∧ (5 ≤ s'.opa ∧ s'.opa % 2 = 1 ∧ s'.rnd = .waiting) :=
  ⟨testing t4 5 .idle 0, testing t4 255 .waiting 0, by decide⟩

/-- A round of 9 with base 2 fails: `8 = 2³·1`, and 2, 4, 7 are none of 1, 8. -/
theorem witness_MrtestRoundFollowsListing_failed :
    ∃ (s : State) (w k d a : Nat), 5 ≤ s.opa ∧ s.opa % 2 = 1 ∧ s.rnd = .answered (.ok w) ∧ s.opa - 1 = 2 ^ k * d ∧
      d % 2 = 1 ∧ a = 2 + w % (s.opa - 3) ∧
      ¬ (a ^ d % s.opa = 1 ∨ ∃ j, j < k ∧ a ^ (2 ^ j * d) % s.opa = s.opa - 1) :=
  ⟨testing t4 9 (.answered (.ok 6)) 0, 6, 3, 1, 2, by decide, by decide, by decide, by decide, by decide, by decide, by decide⟩

/-- A round of 11 with base 9 passes, as the last of two. -/
theorem witness_MrtestRoundFollowsListing_last :
    ∃ (s : State) (w k d a : Nat), 5 ≤ s.opa ∧ s.opa % 2 = 1 ∧ s.rnd = .answered (.ok w) ∧ s.opa - 1 = 2 ^ k * d ∧
      d % 2 = 1 ∧ a = 2 + w % (s.opa - 3) ∧ a ^ d % s.opa = 1 ∧ s.params.rounds ≤ s.round + 1 :=
  ⟨testing t4 11 (.answered (.ok 7)) 1, 7, 1, 5, 9, by decide⟩

/-- A round of 11 with base 2 passes by `−1`, as the first of two. -/
theorem witness_MrtestRoundFollowsListing_next :
    ∃ (s : State) (w k d a : Nat), 5 ≤ s.opa ∧ s.opa % 2 = 1 ∧ s.rnd = .answered (.ok w) ∧ s.opa - 1 = 2 ^ k * d ∧
      d % 2 = 1 ∧ a = 2 + w % (s.opa - 3) ∧ (∃ j, j < k ∧ a ^ (2 ^ j * d) % s.opa = s.opa - 1) ∧
      s.round + 1 < s.params.rounds :=
  ⟨testing t4 11 (.answered (.ok 8)) 0, 8, 1, 5, 2, by decide, by decide, by decide, by decide, by decide, by decide,
    ⟨0, by decide⟩, by decide⟩

theorem witness_MrtestFailedDrawIsAnError :
    ∃ s : State, 5 ≤ s.opa ∧ s.opa % 2 = 1 ∧ s.rnd = .answered .fail := ⟨testing t4 11 (.answered .fail) 1, by decide⟩

theorem witness_MrtestCongruenceAndLengthFlags :
    ∃ s t : State, s.command ≠ none ∧ exec .mrtest s = .next t ∧ t.command = none ∧ t.status.err = false :=
  ⟨inFlight .mrtest t4 8 0 0 0, _, by decide, rfl, by decide, by decide⟩

theorem witness_MrtestCongruenceAndLengthFlags_error :
    ∃ s t : State, s.command ≠ none ∧ exec .mrtest s = .next t ∧ t.command = none ∧ t.status.err = true :=
  ⟨testing t4 11 (.answered .fail) 0, _, by decide, rfl, by decide, by decide⟩

theorem witness_MrtestNeverRejectsAPrime :
    ∃ (s : State) (w : Nat), s.opa.Prime ∧ s.command ≠ none ∧ s.rnd = .answered (.ok w) ∧ s.params.rounds ≤ s.round + 1 :=
  ⟨testing t4 13 (.answered (.ok 9)) 1, 9, show Nat.Prime 13 by norm_num, by decide⟩

theorem witness_MrtestNeverRejectsAPrime_completed :
    ∃ s t : State, s.opa.Prime ∧ s.command ≠ none ∧ exec .mrtest s = .next t ∧ t.command = none ∧ t.status.err = false :=
  ⟨testing t4 3 .idle 0, _, show Nat.Prime 3 by norm_num, by decide, rfl, by decide, by decide⟩

/-- V-M15: draws 7 and 8 for 11. -/
theorem witness_MrtestStepsRefineListing :
    ∃ (s : State) (as : List Answer), s.command = some (encode .mrtest) ∧ s.rnd = .idle ∧ s.round = 0 ∧
      s.turns = .block :: answerTurns (s.requests + 1) as ∧ (∀ w, Answer.ok w ∈ as → w < 2 ^ s.params.w) ∧
      listing40A s.params.rounds s.opa as = some (.ok true, []) := by
  refine ⟨scheduled (inFlight .mrtest t4 11 0 0 0) (.block :: answerTurns 1 [.ok 7, .ok 8]), [.ok 7, .ok 8], rfl, rfl,
    rfl, rfl, ?_, by rfl⟩
  intro w hw
  simp at hw
  rcases hw with rfl | rfl <;> decide

/-- V-M31: no answer comes. -/
theorem witness_MrtestStepsRefineListing_hang :
    ∃ (s : State) (as : List Answer), s.command = some (encode .mrtest) ∧ s.rnd = .idle ∧ s.round = 0 ∧
      s.turns = .block :: answerTurns (s.requests + 1) as ∧ (∀ w, Answer.ok w ∈ as → w < 2 ^ s.params.w) ∧
      listing40A s.params.rounds s.opa as = none :=
  ⟨scheduled (inFlight .mrtest t4 11 0 0 0) [.block], [], rfl, rfl, rfl, rfl, fun w hw => (by cases hw), by rfl⟩

theorem witness_MrtestCompletesWithinItsRounds :
    ∃ (s : State) (as : List Answer), s.command = some (encode .mrtest) ∧ s.rnd = .idle ∧ s.round = 0 ∧
      s.turns = .block :: answerTurns (s.requests + 1) as ∧ as.length = s.params.rounds :=
  ⟨scheduled (inFlight .mrtest t4 11 0 0 0) (.block :: answerTurns 1 [.ok 7, .fail]), [.ok 7, .fail], rfl, rfl, rfl, rfl,
    rfl⟩

theorem witness_MrtestHangsWithoutAnAnswer :
    ∃ (s : State) (rest : List Turn), s.command = some (encode .mrtest) ∧ s.status.busy = true ∧ s.rnd = .waiting ∧
      5 ≤ s.opa ∧ s.opa % 2 = 1 ∧ s.turns = rest ∧
      ∀ t ∈ rest, turnOk s.params t = true ∧ t ≠ .reset ∧ ∀ a, t ≠ .answer s.requests a := by
  refine ⟨scheduled (testing t4 11 .waiting 0) [.block, .write 16 4 9#32], _, rfl, rfl, rfl, by decide, by decide, rfl, ?_⟩
  intro t ht
  simp [scheduled] at ht
  rcases ht with rfl | rfl <;> exact ⟨by decide, by simp, by simp⟩

theorem witness_ClrWipesAllDataRegisters : ∃ (i : Instr) (s t : State), i ≠ .clr ∧ exec i s = .next t :=
  ⟨.xgcd, withOperands t4 7 11 0 0, _, by decide, rfl⟩

theorem witness_CompletionWritesEveryResultAndFlag :
    ∃ (s t : State) (w : Word), s.command = some w ∧ BlockMoves s ∧ step s = .next t ∧ t.command = none ∧
      w = encode .xgcd := ⟨inFlight .xgcd t4 7 11 0 0, _, _, rfl, .inl rfl, rfl, rfl, rfl⟩

theorem witness_CompletionWritesEveryResultAndFlag_error :
    ∃ (s t : State) (w : Word), s.command = some w ∧ BlockMoves s ∧ step s = .next t ∧ t.command = none ∧
      t.status.err = true ∧ w = encode .modsqr :=
  ⟨inFlight .modsqr t4 7 0 0 0, _, _, rfl, .inl rfl, rfl, rfl, rfl, rfl⟩

theorem witness_CommandErrorsHaveExactlyTheirCauses :
    ∃ (s t : State) (w : Word), s.command = some w ∧ BlockMoves s ∧ step s = .next t ∧ t.command = none ∧
      w = encode .sqrtcrt ∧ s.opq % 4 ≠ 3 :=
  ⟨inFlight .sqrtcrt t4 25 0 7 9, _, _, rfl, .inl rfl, rfl, rfl, rfl, by decide⟩

theorem witness_CommandErrorsHaveExactlyTheirCauses_illegal :
    ∃ (s t : State) (w : Word), s.command = some w ∧ BlockMoves s ∧ step s = .next t ∧ t.command = none ∧
      ∀ i, w ≠ encode i := by
  refine ⟨issue 0x101#32 (State.resetOf t4), _, 0x101#32, rfl, .inl rfl, rfl, rfl, ?_⟩
  intro i
  cases i <;> decide

theorem witness_CommandErrorsHaveExactlyTheirCauses_draw :
    ∃ (s t : State) (w : Word), s.command = some w ∧ BlockMoves s ∧ step s = .next t ∧ t.command = none ∧
      w = encode .mrtest ∧ 5 ≤ s.opa ∧ s.opa % 2 = 1 ∧ s.rnd = .answered .fail :=
  ⟨testing t4 5 (.answered .fail) 0, _, _, rfl, .inl rfl, rfl, rfl, rfl, by decide⟩

theorem witness_CommandErrorEntry :
    ∃ (s t : State) (w : Word), s.command = some w ∧ BlockMoves s ∧ step s = .next t ∧ t.command = none ∧
      t.status.err = true := ⟨testing t4 11 (.answered .fail) 1, _, _, rfl, .inl rfl, rfl, rfl, rfl⟩

theorem witness_CommandsArePure :
    ∃ (s s' t t' : State) (w : Word), s ≠ s' ∧ s.command = some w ∧ s'.command = some w ∧ BlockMoves s ∧
      BlockMoves s' ∧ s.params = s'.params ∧
      (w = encode .modsqr ∨ w = encode .xgcd → s.opa = s'.opa ∧ s.opb = s'.opb) ∧
      (w = encode .sqrtcrt → s.opa = s'.opa ∧ s.opp = s'.opp ∧ s.opq = s'.opq) ∧
      (w = encode .mrtest → s.opa = s'.opa ∧ s.rnd = s'.rnd ∧ s.round = s'.round) ∧
      step s = .next t ∧ step s' = .next t' ∧ t.command = none := by
  refine ⟨inFlight .modsqr t4 5 77 0 0, inFlight .modsqr t4 5 77 7 11, _, _, _, by decide, rfl, rfl, .inl rfl, .inl rfl,
    rfl, fun _ => ⟨rfl, rfl⟩, ?_, fun _ => ⟨rfl, rfl, rfl⟩, rfl, rfl, rfl⟩
  decide

theorem witness_OtherCommandsCompleteAtOnce :
    ∃ (s : State) (w : Word), s.command = some w ∧ w ≠ encode .mrtest ∧ BlockMoves s :=
  ⟨issue 0x101#32 (State.resetOf t4), 0x101#32, rfl, by decide, .inl rfl⟩

theorem witness_RegisterMapFollowsTable :
    ∃ (p : Params) (nw nk j : Nat), nw = (2 * p.k + 31) / 32 ∧ nk = (p.k + 31) / 32 ∧ j < nw ∧ nk ≤ j :=
  ⟨Params.default, 32, 16, 31, by decide⟩

theorem witness_RegisterMapFollowsTable_low :
    ∃ (p : Params) (nw nk j : Nat), nw = (2 * p.k + 31) / 32 ∧ nk = (p.k + 31) / 32 ∧ j < nw ∧ j < nk :=
  ⟨Params.default, 32, 16, 15, by decide⟩

theorem witness_HostReadReturnsTheWord :
    ∃ (s : State) (i : Nat) (rest : List Turn) (r : Reg) (j : Nat), s.status.busy = false ∧ i < mapWords s.params ∧
      s.turns = .read (4 * i) 4 :: rest ∧ j < regWords s.params r ∧ i = regFirst s.params r + j :=
  ⟨scheduled (withOperands Params.default 5 77 0 0) [.read (4 * 259) 4], 259, [], .res3, 31, by decide⟩

theorem witness_HostReadReturnsTheWord_reserved :
    ∃ (s : State) (i : Nat) (rest : List Turn) (j : Nat), s.status.busy = false ∧ i < mapWords s.params ∧
      s.turns = .read (4 * i) 4 :: rest ∧ factorWords s.params ≤ j ∧ j < slotWords s.params ∧
      i = regFirst s.params .opq + j :=
  ⟨scheduled (withOperands Params.default 5 77 0 0) [.read (4 * 131) 4], 131, [], 31, by decide⟩

theorem witness_HostReadReturnsTheWord_control :
    ∃ s s' s'' s''' : State, ∀ u ∈ [(s, 0), (s', 1), (s'', 2), (s''', 3)], u.1.status.busy = false ∧
      u.1.turns = [.read (4 * u.2) 4] ∧ u.2 < mapWords u.1.params :=
  ⟨scheduled State.reset [.read 0 4], scheduled State.reset [.read 4 4], scheduled State.reset [.read 8 4],
    scheduled State.reset [.read 12 4], by decide⟩

theorem witness_HostWriteStoresIssuesOrIsIgnored :
    ∃ (s : State) (v : Word) (i : Nat) (rest : List Turn) (r : Reg) (j : Nat), s.status.busy = false ∧ s.inReset = false ∧ RegistersFit s ∧
      i < mapWords s.params ∧ s.turns = .write (4 * i) 4 v :: rest ∧
      (r = .opa ∨ r = .opb ∨ r = .opp ∨ r = .opq) ∧ j < regWords s.params r ∧ i = regFirst s.params r + j :=
  ⟨scheduled (withOperands Params.default 0 0 0 0) [.write (4 * 115) 4 7#32], 7#32, 115, [], .opq, 15, by decide, rfl,
    fit_withOperands _ 0 0 0 0 (by positivity) (by positivity) (by positivity) (by positivity), by decide⟩

theorem witness_HostWriteStoresIssuesOrIsIgnored_others :
    ∃ s s' s'' s''' : State, RegistersFit State.reset ∧
      (∀ u ∈ [(s, 0), (s', 3), (s'', 259), (s''', 99)], u.1.status.busy = false ∧ u.1.inReset = false ∧
        u.1.turns = [.write (4 * u.2) 4 7#32] ∧ u.2 < mapWords u.1.params) ∧
      259 = regFirst Params.default .res3 + 31 ∧ 99 = regFirst Params.default .opp + 31 ∧
      factorWords Params.default ≤ 31 ∧ 31 < slotWords Params.default :=
  ⟨scheduled State.reset [.write 0 4 7#32], scheduled State.reset [.write 12 4 7#32],
    scheduled State.reset [.write 1036 4 7#32], scheduled State.reset [.write 396 4 7#32],
    fit_withOperands Params.default 0 0 0 0 (by positivity) (by positivity) (by positivity) (by positivity), by decide⟩

theorem witness_BusyWindowDropsWritesAndHidesData :
    ∃ (s s' : State) (i : Nat) (v : Word), s.status.busy = true ∧ i < mapWords s.params ∧
      s.turns = [.write (4 * i) 4 v] ∧ s'.status.busy = true ∧ i < mapWords s'.params ∧ s'.turns = [.read (4 * i) 4] :=
  ⟨scheduled (inFlight .mrtest t4 11 0 0 0) [.write 44 4 9#32], scheduled (inFlight .mrtest t4 11 0 0 0) [.read 44 4], 11,
    9#32, by decide⟩

theorem witness_ParamIsAReadOnlyConstant :
    ∃ s s' : State, s.turns = [.read 8 4] ∧ s'.turns = [.write 8 4 7#32] :=
  ⟨scheduled State.reset [.read 8 4], scheduled State.reset [.write 8 4 7#32], by decide⟩

theorem witness_RegWriteInAnyOrder :
    ∃ (s : State) (r : Reg) (v : Nat) (js : List Nat) (rest : List Turn), regWritable r = true ∧
      v < 2 ^ regWidth s.params r ∧ js.Perm (List.range (regWords s.params r)) ∧ s.status.busy = false ∧
      s.inReset = false ∧ s.turns = js.map (wordWriteTurn s.params r v) ++ rest :=
  ⟨scheduled (State.resetOf ⟨17, 2, by decide⟩) ([1, 0].map (wordWriteTurn ⟨17, 2, by decide⟩ .opa (2 ^ 34 - 1))), .opa,
    2 ^ 34 - 1, [1, 0], [], by decide⟩

theorem witness_RegReadReassembles :
    ∃ (s : State) (r : Reg) (rest : List Turn), RegistersFit s ∧ s.status.busy = false ∧
      s.turns = regReadTurns s.params r ++ rest :=
  ⟨scheduled (withOperands t4 255 0 0 0) (regReadTurns t4 .opa), .opa, [],
    fit_withOperands t4 255 0 0 0 (by decide) (by decide) (by decide) (by decide), by decide⟩

theorem witness_OnlyTheBlockWritesResults :
    ∃ s t : State, step s = .next t ∧ results t ≠ results s := ⟨inFlight .modsqr t4 5 77 0 0, _, rfl, by decide⟩

theorem witness_OperandsPersist :
    ∃ (s t : State) (r : Reg), regWritable r = true ∧ step s = .next t ∧ getReg t r ≠ getReg s r :=
  ⟨scheduled (withOperands t4 5 77 0 0) [.write 16 4 9#32], _, .opa, rfl, rfl, by decide⟩

theorem witness_NothingChangesWhileBusy :
    ∃ s t : State, StatusCoherent s ∧ s.status.busy = true ∧ step s = .next t ∧ s.turns.head? ≠ some .reset ∧
      t.status.busy = true :=
  ⟨testing t4 11 .waiting 0, _, ⟨by decide, by decide, by decide, by decide, by decide, by decide, by decide, by decide⟩,
    rfl, rfl, by decide, rfl⟩

theorem witness_OneRequestAtATimeAndOnlyInMrtest :
    ∃ s t : State, step s = .next t ∧ t.requests ≠ s.requests := ⟨testing t4 11 .idle 0, _, rfl, by decide⟩

theorem witness_AnswersReachOnlyTheirRequest :
    ∃ (s : State) (k : Nat) (a : Answer) (rest : List Turn), s.turns = .answer k a :: rest ∧ s.rnd = .waiting ∧
      k = s.requests ∧ ∀ w, a = .ok w → w < 2 ^ s.params.w := by
  refine ⟨scheduled (testing t4 11 .waiting 0) [.answer 1 (.ok 255)], 1, .ok 255, [], rfl, rfl, rfl, ?_⟩
  intro w hw
  cases hw
  decide

/-- V-R3: an answer that arrives after reset. -/
theorem witness_AnswersReachOnlyTheirRequest_late :
    ∃ (s : State) (k : Nat) (a : Answer) (rest : List Turn), s.turns = .answer k a :: rest ∧
      (s.rnd ≠ .waiting ∨ k ≠ s.requests) :=
  ⟨scheduled (State.resetOf t4) [.answer 1 (.ok 7)], 1, .ok 7, [], by decide⟩

theorem witness_ResetAtAnyTime : ∃ (s : State) (rest : List Turn), s.turns = .reset :: rest :=
  ⟨scheduled (testing t4 11 .waiting 0) [.reset], [], rfl⟩

theorem witness_ResetAtAnyTime_asserted :
    ∃ s t : State, s.inReset = true ∧ AtReset s ∧ step s = .next t ∧ s.turns.head? = some (.write 0 4 5#32) :=
  ⟨scheduled (blockReset (State.resetOf t4)) [.write 0 4 5#32], _, rfl, ⟨fun r => by cases r <;> rfl, rfl, rfl, rfl, rfl⟩,
    rfl, rfl⟩

theorem witness_ResetAtAnyTime_release : ∃ (s : State) (rest : List Turn), s.turns = .release :: rest :=
  ⟨scheduled (blockReset (State.resetOf t4)) [.release], [], rfl⟩

theorem witness_StepKeepsRegistersFit : ∃ s t : State, RegistersFit s ∧ step s = .next t :=
  ⟨inFlight .xgcd t4 255 254 0 0, _, fit_withOperands t4 255 254 0 0 (by decide) (by decide) (by decide) (by decide), rfl⟩

theorem witness_StepKeepsStatusCoherent : ∃ s t : State, StatusCoherent s ∧ step s = .next t :=
  ⟨inFlight .modsqr t4 5 0 0 0, _, ⟨by decide, by decide, by decide, by decide, by decide, by decide, by decide, by decide⟩,
    rfl⟩

theorem witness_StepKeepsFlightCoherent : ∃ s t : State, FlightCoherent s ∧ step s = .next t := by
  refine ⟨testing t4 11 (.answered (.ok 255)) 0, _, ⟨by decide, fun _ => by decide, by decide, ?_, fun h => (by cases h)⟩, rfl⟩
  intro w hw
  cases hw
  decide

end Sys2Proof.Tests
end

section
/-! SUPPORT. The step by the turn it takes, as equations: the block's turn, and a host read or write of one word of the
map. The proofs about the register space cite these. -/

namespace Sys2Proof.Machine

theorem dropTurn_of_turns_nil {s : State} (h : s.turns = []) : dropTurn s = s := by
  cases s
  simp_all [dropTurn]

theorem dropTurn_of_turns_cons {s : State} {u : Turn} {rest : List Turn} (h : s.turns = u :: rest) :
    dropTurn s = { s with turns := rest } := by
  simp [dropTurn, h]

/-- Striking a turn off the schedule hides or changes no word of the map. -/
@[simp] theorem readLoc_dropTurn (s : State) (l : Loc) : readLoc (dropTurn s) l = readLoc s l := by
  cases l <;> simp [readLoc]

@[simp] theorem dropsWrites_dropTurn (s : State) : dropsWrites (dropTurn s) = dropsWrites s := rfl

theorem step_of_blockMoves {s : State} (h : BlockMoves s) : step s = blockTurn (dropTurn s) := by
  cases hs : s.turns with
  | nil => rw [step_of_turns_nil s hs, dropTurn_of_turns_nil hs]
  | cons u rest =>
    have hu : u = .block := by simpa [BlockMoves, hs] using h
    rw [step_of_turns_cons s u rest hs, hu, takeTurn]

/-- Rule R34: a read of one word of the map replies with it, and the schedule moves on. -/
theorem step_read_word {s : State} {addr : Nat} {rest : List Turn} {l : Loc} (h : s.turns = .read addr 4 :: rest)
    (ha : oneAlignedWord addr 4 = true) (hl : locate s.params (addr / 4) = some l) :
    step s = .next { s with turns := rest, replies := readLoc s l :: s.replies } := by
  rw [step_of_turns_cons s _ rest h]
  simp [takeTurn, ha, hostRead, hl, recordReply, dropTurn_of_turns_cons h, ← readLoc_dropTurn s l]

/-- Rules R42 and R118: a write of one word of the map is dropped while busy or in reset. -/
theorem step_write_word_dropped {s : State} {addr : Nat} {v : Word} {rest : List Turn} {l : Loc}
    (h : s.turns = .write addr 4 v :: rest) (ha : oneAlignedWord addr 4 = true)
    (hl : locate s.params (addr / 4) = some l) (hd : dropsWrites s = true) :
    step s = .next { s with turns := rest } := by
  rw [step_of_turns_cons s _ rest h, ← dropTurn_of_turns_cons h]
  simp [takeTurn, ha, hostWrite, hl, hd]

/-- Rule R35: a write of one word of the map that is not dropped acts by its place. -/
theorem step_write_word {s : State} {addr : Nat} {v : Word} {rest : List Turn} {l : Loc}
    (h : s.turns = .write addr 4 v :: rest) (ha : oneAlignedWord addr 4 = true)
    (hl : locate s.params (addr / 4) = some l) (hd : dropsWrites s = false) :
    step s = .next (writeLoc v { s with turns := rest } l) := by
  rw [step_of_turns_cons s _ rest h, ← dropTurn_of_turns_cons h]
  simp [takeTurn, ha, hostWrite, hl, hd]

@[simp] theorem locate_zero (p : Params) : locate p 0 = some .cmd := rfl
@[simp] theorem locate_two (p : Params) : locate p 2 = some .param := rfl

end Sys2Proof.Machine
end

section
/-! PROOF. `CMD` and `PARAM`, the two control words whose rules are in 10_state (R17, R19, R21). -/

namespace Sys2Proof.Machine

/-- Settles O7: word 0 of the map is `CMD`, where a write issues and a read finds 0. -/
theorem cmdRegisterIsATrigger : Obligations.CmdRegisterIsATrigger := by
  intro s v rest
  refine ⟨fun h hbusy hreset => ?_, fun h hdrop => ?_, fun h => ?_⟩
  · exact step_write_word h rfl (locate_zero _) ((dropsWrites_eq_false_iff s).2 ⟨hbusy, hreset⟩)
  · exact step_write_word_dropped h rfl (locate_zero _) ((dropsWrites_iff s).2 hdrop)
  · exact step_read_word h rfl (locate_zero _)

/-- The legal ranges of `K` and `MR_ROUNDS` keep the fields of `PARAM` apart, so the sum does not wrap. -/
theorem paramWord_toNat (p : Params) : (paramWord p).toNat = p.k + 65536 * p.rounds + 16777216 := by
  obtain ⟨_, hk, _, hrounds⟩ := p.legal
  rw [paramWord, BitVec.toNat_ofNat]
  omega

theorem paramWord_k (p : Params) : ((paramWord p).extractLsb' 0 16).toNat = p.k := by
  obtain ⟨_, hk, _, hrounds⟩ := p.legal
  rw [BitVec.extractLsb'_toNat, paramWord_toNat, Nat.shiftRight_eq_div_pow]
  omega

theorem paramWord_rounds (p : Params) : ((paramWord p).extractLsb' 16 8).toNat = p.rounds := by
  obtain ⟨_, hk, _, hrounds⟩ := p.legal
  rw [BitVec.extractLsb'_toNat, paramWord_toNat, Nat.shiftRight_eq_div_pow]
  omega

theorem paramWord_version (p : Params) : (paramWord p).extractLsb' 24 8 = 0x01#8 := by
  obtain ⟨_, hk, _, hrounds⟩ := p.legal
  apply BitVec.eq_of_toNat_eq
  rw [BitVec.extractLsb'_toNat, paramWord_toNat, Nat.shiftRight_eq_div_pow, BitVec.toNat_ofNat]
  omega

/-- Settles O45: word 2 of the map is `PARAM`, which reads as `paramWord` and where a write, dropped or not, changes
nothing. -/
theorem paramIsAReadOnlyConstant : Obligations.ParamIsAReadOnlyConstant := by
  refine ⟨fun s v rest => ⟨fun h => ?_, fun h => ?_⟩, by decide⟩
  · exact ⟨paramWord s.params, step_read_word (l := .param) h rfl (locate_two _), paramWord_k _, paramWord_rounds _,
      paramWord_version _⟩
  · cases hd : dropsWrites s with
    | true => exact step_write_word_dropped h rfl (locate_two _) hd
    | false => exact step_write_word h rfl (locate_two _) hd

end Sys2Proof.Machine
end

section
/-! SUPPORT. The decoder reads a command from its own word and from no other (30_encoding rules R46, R48). -/

namespace Sys2Proof

@[simp] theorem decode_encode (i : Instr) : decode (encode i) = .ok i := by cases i <;> rfl

@[simp] theorem encode_inj {i j : Instr} : encode i = encode j ↔ i = j := by
  refine ⟨fun h => ?_, congrArg encode⟩
  have hdec : decode (encode i) = decode (encode j) := congrArg decode h
  simpa using hdec

theorem opOf_of_instrOfOp {op : BitVec 8} {i : Instr} (h : instrOfOp op = some i) : op = opOf i := by
  unfold instrOfOp at h
  split_ifs at h with h1 h2 h3 h4 h5 <;> cases h <;> assumption

/-- A word is its two fields (Table 30-A). -/
theorem rsv_append_op (w : Word) : ((fieldsOf w).rsv ++ (fieldsOf w).op : BitVec (24 + 8)) = w := by
  apply BitVec.eq_of_getLsbD_eq
  intro k hk
  rw [BitVec.getLsbD_append]
  simp only [fieldsOf, BitVec.getLsbD_extractLsb']
  split
  · simp [*]
  · simp [show k - 8 < 24 by omega, show 8 + (k - 8) = k by omega]

theorem decode_eq_ok_iff {w : Word} {i : Instr} : decode w = .ok i ↔ w = encode i := by
  refine ⟨fun h => ?_, fun h => h ▸ decode_encode i⟩
  unfold decode at h
  split at h
  · next hrsv =>
    split at h
    · next j hop =>
      cases h
      have hrsv : (fieldsOf w).rsv = 0#24 := by simpa [FormatC.rsvOk] using hrsv
      rw [encode, ← hrsv, ← opOf_of_instrOfOp hop, rsv_append_op]
    · cases h
  · cases h

end Sys2Proof
end

section
/-! PROOF. What a completion writes (10_state rules R14, R15): Table 10-A as the possible end states of each command. -/

namespace Sys2Proof.Machine

/-- Table 10-A: the end states a command word in flight in `s` may have, the causes of errors apart. A completion
without error leaves 0 in the results and flags to which the command gives no value. -/
inductive CompletesIn (s : State) : Word → State → Prop
  | error (w : Word) (e : CommandError) : CompletesIn s w (commandError e s)
  | modsqr (c : Nat) : CompletesIn s (encode .modsqr) (complete c 0 0 0 Flags.none s)
  | sqrtcrt (m1 m2 m3 m4 : Nat) : CompletesIn s (encode .sqrtcrt) (complete m1 m2 m3 m4 Flags.none s)
  | xgcd (ax ay g : Nat) (x y : Int) : CompletesIn s (encode .xgcd) (complete ax ay g 0 (xgcdFlags x y) s)
  | mrtest (prime : Bool) : CompletesIn s (encode .mrtest) (completeMrtest prime s)
  | clr : CompletesIn s (encode .clr) (complete 0 0 0 0 Flags.none (wipeOperands s))

theorem execModsqr_completesIn {s t : State} (h : execModsqr s = .next t) : CompletesIn s (encode .modsqr) t := by
  unfold execModsqr at h
  dsimp only at h
  split at h <;> cases h
  · exact .error _ _
  · exact .modsqr _

theorem execSqrtcrt_completesIn {s t : State} (h : execSqrtcrt s = .next t) : CompletesIn s (encode .sqrtcrt) t := by
  unfold execSqrtcrt at h
  dsimp only at h
  split at h <;> cases h
  · exact .sqrtcrt _ _ _ _
  · exact .error _ _

theorem execXgcd_completesIn {s t : State} (h : execXgcd s = .next t) : CompletesIn s (encode .xgcd) t := by
  cases h
  exact .xgcd _ _ _ _ _

/-- The round of an answered draw completes the test, or leaves the command in flight for the next round. -/
theorem mrtestRound_completesIn_or (w : Nat) (s : State) :
    CompletesIn s (encode .mrtest) (mrtestRound w s) ∨ (mrtestRound w s).command = s.command := by
  unfold mrtestRound
  split
  · split
    · exact .inr rfl
    · exact .inl (.mrtest true)
  · exact .inl (.mrtest false)

theorem execMrtest_completesIn_or {s t : State} (h : execMrtest s = .next t) :
    CompletesIn s (encode .mrtest) t ∨ t.command = s.command := by
  unfold execMrtest at h
  split at h
  · cases h; exact .inl (.mrtest _)
  · split at h <;> cases h
    · exact .inr rfl
    · exact .inr rfl
    · exact .inl (.error _ _)
    · exact mrtestRound_completesIn_or _ s

/-- Only an `MRTEST` can take a turn without completing. -/
theorem exec_completesIn_or {i : Instr} {s t : State} (h : exec i s = .next t) :
    CompletesIn s (encode i) t ∨ t.command = s.command := by
  cases i with
  | modsqr => exact .inl (execModsqr_completesIn h)
  | sqrtcrt => exact .inl (execSqrtcrt_completesIn h)
  | xgcd => exact .inl (execXgcd_completesIn h)
  | mrtest => exact execMrtest_completesIn_or h
  | clr => cases h; exact .inl .clr

/-- A step of the block that ends the flight of `w` leaves one of the end states of `w`. -/
theorem step_completesIn {s t : State} {w : Word} (hw : s.command = some w) (hmoves : BlockMoves s)
    (h : step s = .next t) (hdone : t.command = none) : CompletesIn (dropTurn s) w t := by
  rw [step_of_blockMoves hmoves] at h
  rcases blockTurn_cases h with ⟨hidle, -⟩ | ⟨w', e, -, -, rfl⟩ | ⟨w', i, hcmd, hdec, hexec⟩
  · simp [hw] at hidle
  · exact .error w _
  · obtain rfl : w = w' := by simpa [hw] using hcmd
    rw [decode_eq_ok_iff.1 hdec]
    refine (exec_completesIn_or hexec).resolve_right fun hkeep => ?_
    simp [hkeep, hw] at hdone

/-- Settles O36, by the end states of the word in flight. -/
theorem completionWritesEveryResultAndFlag : Obligations.CompletionWritesEveryResultAndFlag := by
  intro s t w hw hmoves hstep hdone
  cases step_completesIn hw hmoves hstep hdone with
  | error e => simp [results]
  | modsqr c => simp [results]
  | sqrtcrt m1 m2 m3 m4 => simp
  | xgcd ax ay g x y => simp [xgcdFlags]
  | mrtest prime => simp [results, mrtestFlags]
  | clr => simp [results]

end Sys2Proof.Machine
end

section
/-! SUPPORT. The words of the map by index: every word below the map's end is a place, only words 1 and 2 are `STATUS` and
`PARAM`, and a host access of word `i` is the one at byte offset `4·i` (20_memory rules R31, R33). -/

namespace Sys2Proof.Machine

@[simp] theorem locate_one (p : Params) : locate p 1 = some .status := rfl
@[simp] theorem locate_three (p : Params) : locate p 3 = some .reserved := rfl

theorem exists_locate {p : Params} {i : Nat} (hi : i < mapWords p) : ∃ l, locate p i = some l :=
  Option.ne_none_iff_exists'.1 fun hnone => absurd ((locate_none_iff p i).1 hnone) (by omega)

/-- What a place of the map says of its word index: `CMD`, `STATUS` and `PARAM` are one word each. -/
theorem locate_cases {p : Params} {i : Nat} {l : Loc} (h : locate p i = some l) :
    (i = 0 ∧ l = .cmd) ∨ (i = 1 ∧ l = .status) ∨ (i = 2 ∧ l = .param) ∨
      (3 ≤ i ∧ (l = .reserved ∨ ∃ r j, l = .data r j)) := by
  match i with
  | 0 => cases h; exact .inl ⟨rfl, rfl⟩
  | 1 => cases h; exact .inr (.inl ⟨rfl, rfl⟩)
  | 2 => cases h; exact .inr (.inr (.inl ⟨rfl, rfl⟩))
  | 3 => cases h; exact .inr (.inr (.inr ⟨by decide, .inl rfl⟩))
  | i + 4 =>
    refine .inr (.inr (.inr ⟨by omega, ?_⟩))
    unfold locate at h
    rw [if_neg (by omega), if_neg (by omega), if_neg (by omega), if_neg (by omega)] at h
    split at h
    · cases h
    · split_ifs at h <;> cases h
      · exact .inr ⟨_, _, rfl⟩
      · exact .inl rfl

/-- The words of a `K`-bit slot above the register are reserved (Table 20-A). -/
theorem locate_reserved_of_factor {p : Params} {r : Reg} {j : Nat} (hr : r = .opp ∨ r = .opq)
    (hge : factorWords p ≤ j) (hlt : j < slotWords p) : locate p (regFirst p r + j) = some .reserved := by
  have hwords : regWords p r = factorWords p := by rcases hr with rfl | rfl <;> rfl
  rw [locate_slot p r j hlt, hwords, if_neg (by omega)]

theorem locate_regWord {p : Params} {r : Reg} {j : Nat} (hj : j < regWords p r) :
    locate p (regFirst p r + j) = some (.data r j) := by
  rw [locate_slot p r j (hj.trans_le (regWords_le p r)), if_pos hj]

theorem oneAlignedWord_four_mul (i : Nat) : oneAlignedWord (4 * i) 4 = true := by simp [oneAlignedWord]

/-- Rule R34 by word index. -/
theorem step_read_index {s : State} {i : Nat} {rest : List Turn} {l : Loc} (h : s.turns = .read (4 * i) 4 :: rest)
    (hl : locate s.params i = some l) :
    step s = .next { s with turns := rest, replies := readLoc s l :: s.replies } :=
  step_read_word h (oneAlignedWord_four_mul i) (by rwa [Nat.mul_div_cancel_left i (by decide)])

/-- Rules R42 and R118 by word index. -/
theorem step_write_index_dropped {s : State} {i : Nat} {v : Word} {rest : List Turn} {l : Loc}
    (h : s.turns = .write (4 * i) 4 v :: rest) (hl : locate s.params i = some l) (hd : dropsWrites s = true) :
    step s = .next { s with turns := rest } :=
  step_write_word_dropped h (oneAlignedWord_four_mul i) (by rwa [Nat.mul_div_cancel_left i (by decide)]) hd

/-- Rule R34: a data register shows its value while the block is idle. -/
theorem readLoc_data_of_idle {s : State} (hidle : s.status.busy = false) (r : Reg) (j : Nat) :
    readLoc s (.data r j) = wordOf (getReg s r) j := by simp [readLoc, hidle]

/-- Rule R42: while busy only `STATUS` and `PARAM` show their words. -/
theorem readLoc_of_busy {s : State} {i : Nat} {l : Loc} (hbusy : s.status.busy = true)
    (hl : locate s.params i = some l) :
    readLoc s l = if i = 1 then statusWord s.status else if i = 2 then paramWord s.params else 0#32 := by
  rcases locate_cases hl with ⟨rfl, rfl⟩ | ⟨rfl, rfl⟩ | ⟨rfl, rfl⟩ | ⟨hi, hhidden⟩
  · rfl
  · rfl
  · rfl
  · have hzero : readLoc s l = 0#32 := by
      rcases hhidden with rfl | ⟨r, j, rfl⟩ <;> simp [readLoc, hbusy]
    rw [hzero, if_neg (by omega), if_neg (by omega)]

end Sys2Proof.Machine
end

section
/-! PROOF. Host accesses to the words of the map (20_memory rules R34, R42). -/

namespace Sys2Proof.Machine

/-- Settles O42: the reply is what `readLoc` gives at the place of word `i`, and each clause names that place. -/
theorem hostReadReturnsTheWord : Obligations.HostReadReturnsTheWord := by
  intro s i rest hidle hi hturn
  obtain ⟨l, hl⟩ := exists_locate hi
  have hplace : ∀ {l'}, locate s.params i = some l' → readLoc s l = readLoc s l' := fun h' => by
    rw [Option.some.inj (hl.symm.trans h')]
  refine ⟨readLoc s l, step_read_index hturn hl, ?_, ?_, ?_, ?_, ?_⟩
  · rintro r j hj rfl k hk
    rw [hplace (locate_regWord hj), readLoc_data_of_idle hidle, wordOf_getLsbD]
    simp [hk]
  · rintro (rfl | rfl)
    · exact hplace (locate_zero _)
    · exact hplace (locate_three _)
  · rintro j hge hlt (rfl | rfl)
    · exact hplace (locate_reserved_of_factor (.inl rfl) hge hlt)
    · exact hplace (locate_reserved_of_factor (.inr rfl) hge hlt)
  · rintro rfl
    rw [hplace (locate_one _), readLoc]
  · rintro rfl
    rw [hplace (locate_two _), readLoc]

/-- Settles O44: a busy block drops every write, and `readLoc_of_busy` is what a read of each word finds. -/
theorem busyWindowDropsWritesAndHidesData : Obligations.BusyWindowDropsWritesAndHidesData := by
  intro s i rest hbusy hi
  obtain ⟨l, hl⟩ := exists_locate hi
  refine ⟨fun v hturn => ?_, fun hturn => ?_⟩
  · exact step_write_index_dropped hturn hl ((dropsWrites_iff s).2 (.inl hbusy))
  · rw [step_read_index hturn hl, readLoc_of_busy hbusy hl]

end Sys2Proof.Machine
end

section
/-! PROOF. The decoder selects each command by all 32 bits of its word (30_encoding rule R46). -/

namespace Sys2Proof

/-- The "word" column of Table 30-B. -/
def tableWord : Instr → Word
  | .modsqr => 0x00000001#32
  | .sqrtcrt => 0x00000002#32
  | .xgcd => 0x00000003#32
  | .mrtest => 0x00000004#32
  | .clr => 0x00000005#32

theorem encode_eq_tableWord (i : Instr) : encode i = tableWord i := by cases i <;> rfl

theorem decode_eq_ok_iff_tableWord (w : Word) (i : Instr) : decode w = .ok i ↔ w = tableWord i := by
  rw [decode_eq_ok_iff, encode_eq_tableWord]

/-- Settles O1: the decoder answers a command exactly on its encoding, which is its word in Table 30-B. -/
theorem commandWordsDecodeExactly : Obligations.CommandWordsDecodeExactly := fun w =>
  ⟨decode_eq_ok_iff_tableWord w .modsqr, decode_eq_ok_iff_tableWord w .sqrtcrt, decode_eq_ok_iff_tableWord w .xgcd,
    decode_eq_ok_iff_tableWord w .mrtest, decode_eq_ok_iff_tableWord w .clr⟩

end Sys2Proof
end

section
/-! SUPPORT. The bit length as a range of values (00_scope rule R7). -/

namespace Sys2Proof.Machine

/-- The range fails to say `bitlen v = k` only at `k = 0`, where it is empty although `bitlen 0 = 0`. -/
theorem bitlen_eq_iff {k v : Nat} (hk : 0 < k) : bitlen v = k ↔ 2 ^ (k - 1) ≤ v ∧ v < 2 ^ k := by
  obtain ⟨k, rfl⟩ := Nat.exists_eq_add_one.2 hk
  unfold bitlen
  split
  · next hv => simp [hv]
  · next hv => simp [Nat.log2_eq_iff hv]

end Sys2Proof.Machine
end

section
/-! PROOF. The flags `C3M4` and `LENK` of an `MRTEST` that completes (40_primality_test rule R56). -/

namespace Sys2Proof.Machine

theorem c3m4Flag_iff (n : Nat) : c3m4Flag n = true ↔ n % 4 = 3 := beq_iff_eq

theorem lenkFlag_iff {k : Nat} (n : Nat) (hk : 0 < k) : lenkFlag k n = true ↔ 2 ^ (k - 1) ≤ n ∧ n < 2 ^ k :=
  beq_iff_eq.trans (bitlen_eq_iff hk)

/-- The end states of an `MRTEST`: a command error, or a verdict with the flags of `n = OPA`. -/
theorem CompletesIn.mrtest_cases {s t : State} (h : CompletesIn s (encode .mrtest) t) :
    (∃ e, t = commandError e s) ∨ ∃ prime, t = completeMrtest prime s := by
  generalize hw : encode .mrtest = w at h
  cases h with
  | error _ e => exact .inl ⟨e, rfl⟩
  | mrtest prime => exact .inr ⟨prime, rfl⟩
  | modsqr | sqrtcrt | xgcd | clr => simp at hw

/-- Settles O30, by the end states of `MRTEST`: no draw enters `mrtestFlags` but through the verdict `PRIME`. -/
theorem mrtestCongruenceAndLengthFlags : Obligations.MrtestCongruenceAndLengthFlags := by
  intro s t hflight hexec hdone
  have hends : CompletesIn s (encode .mrtest) t :=
    (exec_completesIn_or hexec).resolve_right fun hkeep => hflight (hkeep ▸ hdone)
  obtain ⟨e, rfl⟩ | ⟨prime, rfl⟩ := hends.mrtest_cases
  · simp
  · have hk : 0 < s.params.k := by have := s.params.legal; omega
    simp [mrtestFlags, c3m4Flag_iff, lenkFlag_iff _ hk]

end Sys2Proof.Machine
end

section
/-! SUPPORT. `MODSQR` by its modulus, as equations: the command error for `N = 0`, the square of `OPA` for `N ≥ 1`
(Listing 41-A). -/

namespace Sys2Proof.Machine

theorem exec_modsqr_of_zero {s : State} (hN : s.opb = 0) :
    exec .modsqr s = .next (commandError .invalidModulus s) := if_pos hN

theorem exec_modsqr_of_pos {s : State} (hN : 1 ≤ s.opb) :
    exec .modsqr s = .next (complete (s.opa * s.opa % s.opb) 0 0 0 Flags.none s) := if_neg (Nat.pos_iff_ne_zero.1 hN)

end Sys2Proof.Machine
end

section
/-! PROOF. The modular squarer (41_modular_squarer rules R66, R67, R68). -/

namespace Sys2Proof.Machine

/-- Settles O9: a completion writes exactly the fields the statement lists. -/
theorem modsqrSquaresModuloN : Obligations.ModsqrSquaresModuloN := by
  intro s hN
  refine ⟨exec_modsqr_of_pos hN, Nat.mod_lt _ hN, fun hfit => ?_⟩
  exact Nat.le_sub_one_of_lt (hfit .opb)

/-- Settles O10: only `N = 0` takes the error line of Listing 41-A, and every square is 0 modulo 1. -/
theorem modsqrZeroModulusIsInvalid : Obligations.ModsqrZeroModulusIsInvalid := by
  refine fun s => ⟨fun hzero => exec_modsqr_of_zero hzero, fun hone => ?_⟩
  refine ⟨_, exec_modsqr_of_pos hone.ge, rfl, ?_⟩
  rw [complete_res0, hone, Nat.mod_one]

/-- Settles O11: a square modulo `N` depends on its root modulo `N` alone. -/
theorem modsqrWrapsSilently : Obligations.ModsqrWrapsSilently := by
  intro s hN
  have hwrap : s.opa * s.opa % s.opb = (s.opa % s.opb) * (s.opa % s.opb) % s.opb := Nat.mul_mod _ _ _
  exact ⟨_, _, exec_modsqr_of_pos hN, exec_modsqr_of_pos hN, rfl, hwrap, hwrap, rfl, rfl⟩

end Sys2Proof.Machine
end

section
/-! SUPPORT. The non-negative remainder of a signed sum (00_scope rule R8), and with it the candidates of 42_sqrt_crt
rule R76 as exact integers. -/

namespace Sys2Proof.Machine

theorem modInt_cast {n : Nat} (hn : 0 < n) (x : Int) : (modInt x n : Int) = x % (n : Int) :=
  Int.toNat_of_nonneg (Int.emod_nonneg x (by omega))

theorem modInt_lt {n : Nat} (hn : 0 < n) (x : Int) : modInt x n < n := by
  have hrem : x % (n : Int) < n := Int.emod_lt_of_pos x (by omega)
  rwa [← modInt_cast hn, Nat.cast_lt] at hrem

/-- Rule R76: the candidate with half roots `r` mod `p` and `u` mod `q`. -/
theorem crtCandidate_cast {p q : Nat} (hN : 0 < p * q) (a b : Int) (r u : Nat) :
    (crtCandidate a b p q r u : Int) = (a * p * u + b * q * r) % ((p * q : Nat) : Int) := modInt_cast hN _

theorem crtCandidate_lt {p q : Nat} (hN : 0 < p * q) (a b : Int) (r u : Nat) : crtCandidate a b p q r u < p * q :=
  modInt_lt hN _

end Sys2Proof.Machine
end

section
/-! SUPPORT. `SQRTCRT` by its factors, as equations: the command error when one of them is not 3 mod 4, else the four
candidates (Listing 42-A). -/

namespace Sys2Proof.Machine

theorem factorsOk_iff (o : SqrtcrtOperands) : factorsOk o = true ↔ o.p % 4 = 3 ∧ o.q % 4 = 3 := by simp [factorsOk]

theorem exec_sqrtcrt_of_bad_factor {s : State} (hbad : s.opp % 4 ≠ 3 ∨ s.opq % 4 ≠ 3) :
    exec .sqrtcrt s = .next (commandError .invalidModulus s) := by
  refine if_neg fun hok => ?_
  obtain ⟨hp, hq⟩ := (factorsOk_iff _).1 hok
  exact hbad.elim (· hp) (· hq)

/-- A factor that is 3 mod 4 is positive, so `modexp` is the power of rule R74. -/
theorem modexp_of_three_mod_four {p : Nat} (hp : p % 4 = 3) (c e : Nat) : modexp c e p = c ^ e % p :=
  modexp_eq c e p (by omega)

theorem exec_sqrtcrt_of_three_mod_four {s : State} {g r u : Nat} {a b : Int} (hp : s.opp % 4 = 3)
    (hq : s.opq % 4 = 3) (hegcd : egcd s.opp s.opq = (g, a, b)) (hr : r = s.opa ^ ((s.opp + 1) / 4) % s.opp)
    (hu : u = s.opa ^ ((s.opq + 1) / 4) % s.opq) :
    exec .sqrtcrt s =
      .next (complete (crtCandidate a b s.opp s.opq r u) (crtCandidate a b s.opp s.opq (s.opp - r) u)
        (crtCandidate a b s.opp s.opq r (s.opq - u)) (crtCandidate a b s.opp s.opq (s.opp - r) (s.opq - u))
        Flags.none s) := by
  have hok : factorsOk (sqrtcrtOperands s) = true := (factorsOk_iff _).2 ⟨hp, hq⟩
  rw [← modexp_of_three_mod_four hp] at hr
  rw [← modexp_of_three_mod_four hq] at hu
  refine (if_pos hok).trans ?_
  simp only [sqrtcrtOperands, hegcd, ← hr, ← hu]

end Sys2Proof.Machine
end

section
/-! PROOF. The modular square roots: the operand check and the four candidates (42_sqrt_crt rules R73, R76, R77). -/

namespace Sys2Proof.Machine

/-- Settles O14: a factor that fails the check takes the error line of Listing 42-A, and 0 is not 3 mod 4. -/
theorem sqrtcrtChecksFactorsModFour : Obligations.SqrtcrtChecksFactorsModFour := by
  refine fun s => ⟨fun hbad => exec_sqrtcrt_of_bad_factor hbad, fun hzero => by omega, fun hp hq => ?_⟩
  have hp3 : 3 ≤ s.opp := by omega
  have hq3 : 3 ≤ s.opq := by omega
  exact ⟨hp3, hq3, Nat.mul_le_mul hp3 hq3⟩

/-- Settles O13: each half root lies below its factor, so the natural subtractions of the listing are exact and every
candidate is the formula of rule R76. -/
theorem sqrtcrtWritesFourCandidates : Obligations.SqrtcrtWritesFourCandidates := by
  intro s g r u a b hp hq hegcd hr hu
  have hp0 : 0 < s.opp := by omega
  have hq0 : 0 < s.opq := by omega
  have hN : 0 < s.opp * s.opq := Nat.mul_pos hp0 hq0
  have hrp : r < s.opp := hr ▸ Nat.mod_lt _ hp0
  have huq : u < s.opq := hu ▸ Nat.mod_lt _ hq0
  refine ⟨_, _, _, _, exec_sqrtcrt_of_three_mod_four hp hq hegcd hr hu, crtCandidate_cast hN .., ?_, ?_, ?_,
    crtCandidate_lt hN .., crtCandidate_lt hN .., crtCandidate_lt hN .., crtCandidate_lt hN .., hrp, huq⟩
  · rw [crtCandidate_cast hN, Nat.cast_sub hrp.le]
  · rw [crtCandidate_cast hN, Nat.cast_sub huq.le]
  · rw [crtCandidate_cast hN, Nat.cast_sub hrp.le, Nat.cast_sub huq.le]

end Sys2Proof.Machine
end

section
/-! SUPPORT. `EGCD` computes the gcd and Bezout coefficients of it, and `XGCD` as an equation in the value of `EGCD`
(43_extended_euclid rule R86, Listing 43-A). -/

namespace Sys2Proof.Machine

/-- The fuel of `egcd` suffices, and its start meets the invariant: `u·1 + v·0 = u` and `u·0 + v·1 = v`. -/
theorem egcd_spec (u v : Nat) :
    (egcd u v).1 = Nat.gcd u v ∧
      (u : Int) * (egcd u v).2.1 + (v : Int) * (egcd u v).2.2 = (Nat.gcd u v : Nat) :=
  egcdLoop_spec u v (v + 1) u v 1 0 0 1 v.lt_succ_self (by simp) (by simp)

theorem gcd_of_egcd {u v g : Nat} {x y : Int} (h : egcd u v = (g, x, y)) : g = Nat.gcd u v := by
  simpa [h] using (egcd_spec u v).1

theorem bezout_of_egcd {u v g : Nat} {x y : Int} (h : egcd u v = (g, x, y)) : (u : Int) * x + (v : Int) * y = g := by
  rw [gcd_of_egcd h]
  simpa [h] using (egcd_spec u v).2

theorem exec_xgcd_of_egcd {s : State} {g : Nat} {x y : Int} (h : egcd s.opa s.opb = (g, x, y)) :
    exec .xgcd s = .next (complete x.natAbs y.natAbs g 0 (xgcdFlags x y) s) := by
  simp only [exec, execXgcd, xgcdOperands_u, xgcdOperands_v, h]

/-- Rule R86: the host's rebuilding undoes the sign and magnitude of rule R88. -/
theorem rebuild_of_sign {negative : Bool} {x : Int} (hsign : negative = decide (x < 0)) :
    (if negative then -(x.natAbs : Int) else x.natAbs) = x := by
  subst hsign
  simp only [decide_eq_true_eq]
  split <;> omega

end Sys2Proof.Machine
end

section
/-! PROOF. The extended Euclidean algorithm (43_extended_euclid rules R86, R88). -/

namespace Sys2Proof.Machine

/-- Settles O21: a completion writes exactly the fields the statement lists. -/
theorem xgcdWritesSignAndMagnitude : Obligations.XgcdWritesSignAndMagnitude :=
  fun _ _ _ _ hegcd => exec_xgcd_of_egcd hegcd

/-- Settles O22: the host rebuilds the coefficients of `EGCD` itself, and these satisfy the identity. -/
theorem xgcdBezoutIdentity : Obligations.XgcdBezoutIdentity := by
  intro s
  rcases hegcd : egcd s.opa s.opb with ⟨g, x, y⟩
  refine ⟨_, exec_xgcd_of_egcd hegcd, ?_, gcd_of_egcd hegcd⟩
  simp only [complete_res0, complete_res1, complete_res2]
  rw [rebuild_of_sign (x := x), rebuild_of_sign (x := y), bezout_of_egcd hegcd]
  · rfl
  · rfl

end Sys2Proof.Machine
end

section
/-! PROOF. `CLR`, the wipe of the data registers (44_control_and_host rule R92). -/

namespace Sys2Proof.Machine

/-- Rule R92, its second half: whether the command completes, ends in an error or stays in flight. -/
theorem exec_keeps_operands {i : Instr} {s t : State} (hi : i ≠ .clr) (h : exec i s = .next t) :
    t.opa = s.opa ∧ t.opb = s.opb ∧ t.opp = s.opp ∧ t.opq = s.opq := by
  obtain ⟨t', hexec, hcases⟩ := exec_cases i s
  obtain rfl : t' = t := by simpa [hexec] using h
  rcases hcases with ⟨r0, r1, r2, r3, f, -, rfl⟩ | ⟨e, -, rfl⟩ | ⟨-, -, hflight⟩
  · simp [hi]
  · simp
  · rcases hflight with ⟨-, rfl⟩ | ⟨-, rfl⟩ | ⟨w, -, -, rfl⟩
    · simp
    · simp
    · simp

theorem exec_clr (s : State) : exec .clr s = .next (complete 0 0 0 0 Flags.none (wipeOperands s)) := rfl

/-- Settles O35: the wipe is a completion over wiped operands, and every other command keeps the operands. -/
theorem clrWipesAllDataRegisters : Obligations.ClrWipesAllDataRegisters :=
  ⟨exec_clr, by decide, fun _ _ _ => exec_keeps_operands⟩

end Sys2Proof.Machine
end

section
/-! PROOF. What a command error writes, and what it leaves (60_exceptions rule R110). -/

namespace Sys2Proof.Machine

/-- Of the end states of a command, only the command errors have `ERR = 1`. -/
theorem CompletesIn.eq_commandError_of_err {s t : State} {w : Word} (h : CompletesIn s w t)
    (herr : t.status.err = true) : ∃ e, t = commandError e s := by
  cases h with
  | error _ e => exact ⟨e, rfl⟩
  | modsqr c => simp at herr
  | sqrtcrt m1 m2 m3 m4 => simp at herr
  | xgcd ax ay g x y => simp at herr
  | mrtest prime => simp at herr
  | clr => simp at herr

/-- Table 60-A: the numbers of the three command errors. -/
theorem errorCode_bounds (e : CommandError) : 1 ≤ (errorCode e).toNat ∧ (errorCode e).toNat ≤ 3 := by
  cases e <;> decide

/-- Rule R110: `DONE` (2), `ERR` (4) and the code from bit 4 up are all that `STATUS` reads after an error. -/
theorem statusWord_errorStatus_toNat (e : CommandError) :
    (statusWord (errorStatus e)).toNat = 6 + 16 * (errorCode e).toNat := by
  cases e <;> rfl

/-- Settles O38: a completion with `ERR = 1` is a command error of the state whose schedule has moved on. -/
theorem commandErrorEntry : Obligations.CommandErrorEntry := by
  intro s t w hw hmoves hstep hdone herr
  obtain ⟨e, rfl⟩ := (step_completesIn hw hmoves hstep hdone).eq_commandError_of_err herr
  exact ⟨errorCode e, rfl, statusWord_errorStatus_toNat e, errorCode_bounds e⟩

end Sys2Proof.Machine
end

section
/-! SUPPORT. Everything a step changes, one case per effect with what that effect needs: the form of `step_cases` from
which the invariants and the whole-machine rules follow. -/

namespace Sys2Proof.Machine

/-- An answer of `rnd` in hand (60_exceptions rule R114): what `acceptAnswer` leaves when it takes one. -/
def withAnswer (a : Answer) (s : State) : State := { s with rnd := .answered a }

@[simp] theorem withAnswer_rnd (a : Answer) (s : State) : (withAnswer a s).rnd = .answered a := rfl

@[simp] theorem getReg_withAnswer (a : Answer) (s : State) (r : Reg) : getReg (withAnswer a s) r = getReg s r := by
  cases r <;> rfl

/-- The effects of a step that answers a next state, each on the state with its turn struck off. -/
inductive StepEffect (s : State) : State → Prop
  | nothing : StepEffect s (dropTurn s)
  | reply (x : Word) : StepEffect s (recordReply x (dropTurn s))
  | issue (v : Word) (hidle : dropsWrites s = false) : StepEffect s (issue v (dropTurn s))
  | store (r : Reg) (j : Nat) (v : Word) (hidle : dropsWrites s = false) (hwritable : regWritable r = true)
      (hj : j < regWords s.params r)
      (hturn : s.turns.head? = some (.write (4 * (regFirst s.params r + j)) 4 v)) :
      StepEffect s (setReg r (setWord (regWidth s.params r) (getReg s r) j v) (dropTurn s))
  | answer (a : Answer) (hwaiting : s.rnd = .waiting) (hturn : s.turns.head? = some (.answer s.requests a)) :
      StepEffect s (withAnswer (answerOnWires s.params a) (dropTurn s))
  | reset (hturn : s.turns.head? = some .reset) : StepEffect s (blockReset (dropTurn s))
  | release (hturn : s.turns.head? = some .release) : StepEffect s (releaseReset (dropTurn s))
  | completion (w : Word) (t : State) (hmoves : BlockMoves s) (hcommand : s.command = some w)
      (hends : CompletesIn (dropTurn s) w t) : StepEffect s t
  | firstRequest (hcommand : s.command = some (encode .mrtest)) (hdraws : mrWithoutDraws s.opa = none)
      (hidle : s.rnd = .idle) : StepEffect s (requestDraw (dropTurn s))
  | nextRequest (w : Nat) (hcommand : s.command = some (encode .mrtest)) (hdraws : mrWithoutDraws s.opa = none)
      (hanswer : s.rnd = .answered (.ok w)) (hround : s.round + 1 < s.params.rounds) :
      StepEffect s (requestDraw (countRound (dropTurn s)))

theorem oneAlignedWord_iff (addr size : Nat) : oneAlignedWord addr size = true ↔ size = 4 ∧ addr % 4 = 0 := by
  simp [oneAlignedWord]

/-- The block's turn with a command's own word in flight. -/
theorem step_of_encode {s : State} {i : Instr} (hmoves : BlockMoves s) (hcommand : s.command = some (encode i)) :
    step s = exec i (dropTurn s) :=
  (step_of_blockMoves hmoves).trans (blockTurn_ok _ _ i hcommand (decode_encode i))

/-- A command that runs completes, or it is an `MRTEST` that waits or makes a request. -/
theorem exec_effect {s t : State} {w : Word} {i : Instr} (hmoves : BlockMoves s) (hcommand : s.command = some w)
    (hdecode : decode w = .ok i) (hexec : exec i (dropTurn s) = .next t) : StepEffect s t := by
  obtain rfl := decode_eq_ok_iff.1 hdecode
  have hends (hdone : t.command = none) : CompletesIn (dropTurn s) (encode i) t :=
    (exec_completesIn_or hexec).resolve_right fun hkeep => by simp [hkeep, hcommand] at hdone
  obtain ⟨t', hexec', hcases⟩ := exec_cases i (dropTurn s)
  obtain rfl : t' = t := by simpa [hexec'] using hexec
  rcases hcases with ⟨r0, r1, r2, r3, f, -, rfl⟩ | ⟨e, -, rfl⟩ | ⟨rfl, hdraws, hflight⟩
  · exact .completion _ _ hmoves hcommand (hends rfl)
  · exact .completion _ _ hmoves hcommand (hends rfl)
  · rcases hflight with ⟨hidle, rfl⟩ | ⟨-, rfl⟩ | ⟨w, hanswer, hround, rfl⟩
    · exact .firstRequest hcommand hdraws hidle
    · exact .nothing
    · exact .nextRequest w hcommand hdraws hanswer hround

theorem blockTurn_effect {s t : State} (hmoves : BlockMoves s) (h : blockTurn (dropTurn s) = .next t) :
    StepEffect s t := by
  rcases blockTurn_cases h with ⟨-, rfl⟩ | ⟨w, e, hcommand, -, rfl⟩ | ⟨w, i, hcommand, hdecode, hexec⟩
  · exact .nothing
  · exact .completion w _ hmoves hcommand (.error w _)
  · exact exec_effect hmoves hcommand hdecode hexec

theorem writeLoc_effect {s : State} {addr : Nat} {v : Word} {l : Loc}
    (hturn : s.turns.head? = some (.write addr 4 v)) (haligned : addr % 4 = 0)
    (hl : locate s.params (addr / 4) = some l) (hidle : dropsWrites s = false) :
    StepEffect s (writeLoc v (dropTurn s) l) := by
  rcases writeLoc_cases v (dropTurn s) l with h | h | ⟨r, j, rfl, hwritable, h⟩
  · rw [h]; exact .nothing
  · rw [h]; exact .issue v hidle
  · obtain ⟨hj, haddr⟩ := locate_data _ _ _ _ hl
    obtain rfl : addr = 4 * (regFirst s.params r + j) := by omega
    rw [h, dropTurn_params, getReg_dropTurn]
    exact .store r j v hidle hwritable hj hturn

theorem step_effect {s t : State} (h : step s = .next t) : StepEffect s t := by
  rcases step_cases h with ⟨hmoves, hblock⟩ | ⟨addr, size, l, -, -, -, rfl⟩ |
    ⟨addr, size, v, l, hturn, hword, hl, ⟨-, rfl⟩ | ⟨hidle, rfl⟩⟩ | ⟨k, a, hturn, rfl⟩ | ⟨hturn, rfl⟩ |
    ⟨hturn, rfl⟩
  · exact blockTurn_effect hmoves hblock
  · exact .reply _
  · exact .nothing
  · obtain ⟨rfl, haligned⟩ := (oneAlignedWord_iff addr size).1 hword
    exact writeLoc_effect hturn haligned hl hidle
  · rcases acceptAnswer_cases k a (dropTurn s) with ⟨hwaiting, rfl, haccept⟩ | ⟨-, hdiscard⟩
    · rw [haccept]; exact .answer a hwaiting hturn
    · rw [hdiscard]; exact .nothing
  · exact .reset hturn
  · exact .release hturn

end Sys2Proof.Machine
end

section
/-! SUPPORT. What every completion leaves, whatever the word in flight (10_state rule R19). -/

namespace Sys2Proof.Machine

theorem CompletesIn.frame {s t : State} {w : Word} (h : CompletesIn s w t) :
    t.command = none ∧ t.rnd = .idle ∧ t.round = 0 ∧ t.status.busy = false ∧ t.status.done = true ∧
      t.params = s.params ∧ t.inReset = s.inReset ∧ t.requests = s.requests := by
  cases h <;> exact ⟨rfl, rfl, rfl, rfl, rfl, rfl, rfl, rfl⟩

end Sys2Proof.Machine
end

section
/-! SUPPORT. What keeps the reset state (10_state rules R24 to R26). -/

namespace Sys2Proof.Machine

/-- The reset state keeps being one when fields outside it change. -/
theorem AtReset.of_same {s t : State} (h : AtReset s) (hreg : ∀ r, getReg t r = getReg s r)
    (hstatus : t.status = s.status) (hcommand : t.command = s.command)
    (hrnd : t.rnd = s.rnd) (hround : t.round = s.round) : AtReset t :=
  ⟨fun r => (hreg r).trans (h.registers r), hstatus.trans h.status, hcommand.trans h.command, hrnd.trans h.rnd,
    hround.trans h.round⟩

theorem atReset_dropTurn {s : State} (h : AtReset s) : AtReset (dropTurn s) :=
  h.of_same (getReg_dropTurn s) rfl rfl rfl rfl

theorem atReset_recordReply {s : State} (h : AtReset s) (x : Word) : AtReset (recordReply x s) :=
  h.of_same (getReg_recordReply x s) rfl rfl rfl rfl

theorem atReset_releaseReset {s : State} (h : AtReset s) : AtReset (releaseReset s) :=
  h.of_same (getReg_releaseReset s) rfl rfl rfl rfl

theorem atReset_blockReset (s : State) : AtReset (blockReset s) := ⟨getReg_blockReset s, rfl, rfl, rfl, rfl⟩

end Sys2Proof.Machine
end

section
/-! PROOF. The command in flight, `BUSY`, the port to `rnd` and an asserted reset agree (10_state rule R19,
60_exceptions rule R114, 70_reset_and_hazards rule R118). -/

namespace Sys2Proof.Machine

/-- With nothing in flight, agreement is that `BUSY` is 0 and the port and the round count are at rest. -/
theorem flightCoherent_of_no_command {s : State} (hcommand : s.command = none) (hbusy : s.status.busy = false)
    (hrnd : s.rnd = .idle) (hround : s.round = 0) (hreset : s.inReset = true → AtReset s) : FlightCoherent s where
  busy_iff_command := by simp [hcommand, hbusy]
  draws_only_in_mrtest := by simp [hrnd, hround]
  round_bound := by have := s.params.legal; omega
  answer_fits := by simp [hrnd]
  reset_held := hreset

theorem FlightCoherent.at_rest {s : State} (h : FlightCoherent s) (hcommand : s.command = none) :
    s.status.busy = false ∧ s.rnd = .idle ∧ s.round = 0 := by
  have hbusy := h.busy_iff_command
  have hdraws := h.draws_only_in_mrtest
  simp only [hcommand, ne_eq, not_true, iff_false, Bool.not_eq_true] at hbusy
  simp only [hcommand, reduceCtorEq, false_and, imp_false, not_or, not_not] at hdraws
  exact ⟨hbusy, hdraws⟩

theorem FlightCoherent.command_none_of_not_busy {s : State} (h : FlightCoherent s) (hbusy : s.status.busy = false) :
    s.command = none := by
  by_contra hcommand
  simp [h.busy_iff_command.2 hcommand] at hbusy

theorem FlightCoherent.not_inReset {s : State} {w : Word} (h : FlightCoherent s) (hcommand : s.command = some w) :
    s.inReset = false := by
  by_contra hreset
  simp [(h.reset_held (by simpa using hreset)).command] at hcommand

/-- The agreement speaks of no field that an `MRTEST` in flight on one candidate changes, the port and the round count
apart. -/
theorem FlightCoherent.of_mrtest {s t : State} (h : FlightCoherent s) (hcommand : s.command = some (encode .mrtest))
    (hdraws : mrWithoutDraws s.opa = none) (hsame : t.params = s.params ∧ t.status = s.status ∧
      t.command = s.command ∧ t.opa = s.opa ∧ t.inReset = s.inReset) (hround : t.round < s.params.rounds)
    (hfits : ∀ w, t.rnd = .answered (.ok w) → w < 2 ^ s.params.w) : FlightCoherent t := by
  obtain ⟨hparams, hstatus, hcmd, hopa, hreset⟩ := hsame
  refine ⟨?_, fun _ => ⟨hcmd.trans hcommand, hopa ▸ hdraws⟩, hparams ▸ hround, hparams ▸ hfits, ?_⟩
  · rw [hstatus, hcmd]; exact h.busy_iff_command
  · simp [hreset, h.not_inReset hcommand]

theorem FlightCoherent.dropTurn {s : State} (h : FlightCoherent s) : FlightCoherent (dropTurn s) :=
  ⟨h.busy_iff_command, h.draws_only_in_mrtest, h.round_bound, h.answer_fits,
    fun hreset => atReset_dropTurn (h.reset_held hreset)⟩

theorem FlightCoherent.recordReply {s : State} (h : FlightCoherent s) (x : Word) : FlightCoherent (recordReply x s) :=
  ⟨h.busy_iff_command, h.draws_only_in_mrtest, h.round_bound, h.answer_fits,
    fun hreset => atReset_recordReply (h.reset_held hreset) x⟩

theorem FlightCoherent.releaseReset {s : State} (h : FlightCoherent s) : FlightCoherent (releaseReset s) :=
  ⟨h.busy_iff_command, h.draws_only_in_mrtest, h.round_bound, h.answer_fits, fun hreset => by simp at hreset⟩

theorem flightCoherent_issue {s : State} (v : Word) (hreset : s.inReset = false) : FlightCoherent (issue v s) where
  busy_iff_command := by simp
  draws_only_in_mrtest := by simp
  round_bound := by have := s.params.legal; rw [issue_round, issue_params]; omega
  answer_fits := by simp
  reset_held := by simp [hreset]

/-- An answer as it arrives fits the wires. -/
theorem answerOnWires_fits (p : Params) (a : Answer) (w : Nat) (h : answerOnWires p a = .ok w) : w < 2 ^ p.w := by
  cases a with
  | ok v => cases h; exact Nat.mod_lt _ (Nat.two_pow_pos _)
  | fail => cases h

/-- Settles O60, by the effects of a step: only issue puts a command in flight, only a completion or reset ends its
flight, and while reset is asserted nothing but a reply, a reset or the release has an effect. -/
theorem stepKeepsFlightCoherent : Obligations.StepKeepsFlightCoherent := by
  intro s t hs hstep
  cases step_effect hstep with
  | nothing => exact ⟨hs.dropTurn, rfl⟩
  | reply x => exact ⟨hs.dropTurn.recordReply x, rfl⟩
  | issue v hidle => exact ⟨flightCoherent_issue v ((dropsWrites_eq_false_iff s).1 hidle).2, rfl⟩
  | store r j v hidle =>
    obtain ⟨hbusy, hreset⟩ := (dropsWrites_eq_false_iff s).1 hidle
    have hcommand := hs.command_none_of_not_busy hbusy
    obtain ⟨-, hrnd, hround⟩ := hs.at_rest hcommand
    exact ⟨flightCoherent_of_no_command (by simpa) (by simpa) (by simpa) (by simpa) (by simp [hreset]), by simp⟩
  | answer a hwaiting =>
    obtain ⟨hcommand, hdraws⟩ := hs.draws_only_in_mrtest (.inl (by simp [hwaiting]))
    refine ⟨hs.of_mrtest hcommand hdraws ⟨rfl, rfl, rfl, rfl, rfl⟩ hs.round_bound fun w hw => ?_, rfl⟩
    exact answerOnWires_fits s.params a w (by simpa using hw)
  | reset => exact ⟨flightCoherent_of_no_command rfl rfl rfl rfl fun _ => atReset_blockReset _, rfl⟩
  | release => exact ⟨hs.dropTurn.releaseReset, rfl⟩
  | completion w t hmoves hcommand hends =>
    obtain ⟨hdone, hrnd, hround, hbusy, -, hparams, hreset, -⟩ := hends.frame
    refine ⟨flightCoherent_of_no_command hdone hbusy hrnd hround fun h => ?_, hparams⟩
    simp [hreset, hs.not_inReset hcommand] at h
  | firstRequest hcommand hdraws =>
    exact ⟨hs.of_mrtest hcommand hdraws ⟨rfl, rfl, rfl, rfl, rfl⟩ hs.round_bound (by simp), rfl⟩
  | nextRequest w hcommand hdraws hanswer hround =>
    exact ⟨hs.of_mrtest hcommand hdraws ⟨rfl, rfl, rfl, rfl, rfl⟩ hround (by simp), rfl⟩

end Sys2Proof.Machine
end

section
/-! SUPPORT. Listing 43-A's loop: its lines as equations, and its two columns of coefficients, which exchange when
their start is exchanged and whose sizes the remainders bound (43_extended_euclid rules R85, R89). -/

namespace Sys2Proof.Machine

@[simp] theorem egcdLoop_of_zero (fuel r0 : Nat) (s0 s1 t0 t1 : Int) :
    egcdLoop fuel r0 0 s0 s1 t0 t1 = (r0, s0, t0) := by
  cases fuel <;> simp [egcdLoop]

theorem egcdLoop_of_pos {fuel r0 r1 : Nat} (hr1 : 0 < r1) (s0 s1 t0 t1 : Int) :
    egcdLoop (fuel + 1) r0 r1 s0 s1 t0 t1 =
      egcdLoop fuel r1 (r0 % r1) s1 (s0 - (r0 / r1 : Nat) * s1) t1 (t0 - (r0 / r1 : Nat) * t1) := by
  rw [egcdLoop, if_neg hr1.ne', Nat.mod_eq_sub_div_mul]

/-- The columns of Listing 43-A obey one recurrence. -/
theorem egcdLoop_swap (fuel r0 r1 : Nat) (s0 s1 t0 t1 : Int) :
    egcdLoop fuel r0 r1 t0 t1 s0 s1 =
      ((egcdLoop fuel r0 r1 s0 s1 t0 t1).1, (egcdLoop fuel r0 r1 s0 s1 t0 t1).2.2,
        (egcdLoop fuel r0 r1 s0 s1 t0 t1).2.1) := by
  induction fuel generalizing r0 r1 s0 s1 t0 t1 with
  | zero => rfl
  | succ fuel ih =>
    rcases Nat.eq_zero_or_pos r1 with rfl | hr1
    · simp
    · rw [egcdLoop_of_pos hr1, egcdLoop_of_pos hr1, ih]

theorem egcdLoop_fuel {fuel fuel' r0 r1 : Nat} (h : r1 < fuel) (h' : r1 < fuel') (s0 s1 t0 t1 : Int) :
    egcdLoop fuel r0 r1 s0 s1 t0 t1 = egcdLoop fuel' r0 r1 s0 s1 t0 t1 := by
  induction fuel generalizing fuel' r0 r1 s0 s1 t0 t1 with
  | zero => omega
  | succ fuel ih =>
    obtain ⟨fuel', rfl⟩ := Nat.exists_eq_add_one.2 (r1.zero_le.trans_lt h')
    rcases Nat.eq_zero_or_pos r1 with rfl | hr1
    · simp
    · have hdecrease : r0 % r1 < r1 := Nat.mod_lt _ hr1
      rw [egcdLoop_of_pos hr1, egcdLoop_of_pos hr1]
      exact ih (by omega) (by omega) _ _ _ _

/-- A line of the loop adds the sizes of coefficients whose signs oppose. -/
theorem natAbs_sub_mul_of_opposite {s0 s1 : Int} (h : s0 * s1 ≤ 0) (q : Nat) :
    (s0 - q * s1).natAbs = s0.natAbs + q * s1.natAbs := by
  have hq : (0 : Int) ≤ q := q.cast_nonneg
  rcases mul_nonpos_iff.1 h with ⟨h0, h1⟩ | ⟨h0, h1⟩
  · have hprod : (q : Int) * s1 ≤ 0 := mul_nonpos_of_nonneg_of_nonpos hq h1
    have hsize : (q * s1.natAbs : Int) = -(q * s1) := by rw [Int.ofNat_natAbs_of_nonpos h1, mul_neg]
    zify
    rw [abs_of_nonneg (by omega), abs_of_nonneg h0, ← Int.natCast_natAbs s1, hsize, sub_eq_add_neg]
  · have hprod : 0 ≤ (q : Int) * s1 := mul_nonneg hq h1
    zify
    rw [abs_of_nonpos (by omega), abs_of_nonpos h0, abs_of_nonneg h1]
    ring

/-- The invariant of one column: opposite signs, and `|s1|·r0 + |s0|·r1` constant. The remainders are strictly
decreasing here, so the last quotient is at least 2, which gives the factor 2 of rule R89. -/
theorem egcdLoop_coefficient_bound {fuel r0 r1 : Nat} {s0 s1 : Int} {size : Nat} (hfuel : r1 < fuel) (hr1 : 0 < r1)
    (hlt : r1 < r0) (hsign : s0 * s1 ≤ 0) (hsize : s1.natAbs * r0 + s0.natAbs * r1 = size) (t0 t1 : Int) :
    2 * (egcdLoop fuel r0 r1 s0 s1 t0 t1).2.1.natAbs * Nat.gcd r0 r1 ≤ size := by
  induction fuel generalizing r0 r1 s0 s1 t0 t1 with
  | zero => omega
  | succ fuel ih =>
    rw [egcdLoop_of_pos hr1]
    have hdecrease : r0 % r1 < r1 := Nat.mod_lt _ hr1
    have hdivision : r1 * (r0 / r1) + r0 % r1 = r0 := Nat.div_add_mod r0 r1
    have hgcd : Nat.gcd r1 (r0 % r1) = Nat.gcd r0 r1 := by rw [Nat.gcd_comm r1, ← Nat.gcd_rec, Nat.gcd_comm]
    rcases Nat.eq_zero_or_pos (r0 % r1) with hlast | hmore
    · have hquotient : 2 ≤ r0 / r1 := by
        by_contra hsmall
        have hone : r1 * (r0 / r1) ≤ r1 * 1 := Nat.mul_le_mul_left r1 (by omega)
        omega
      have hdouble : 2 * r1 ≤ r0 := by
        have := Nat.mul_le_mul_left r1 hquotient
        omega
      rw [← hgcd, hlast, Nat.gcd_zero_right, egcdLoop_of_zero, ← hsize]
      calc 2 * s1.natAbs * r1 = s1.natAbs * (2 * r1) := by ring
        _ ≤ s1.natAbs * r0 := Nat.mul_le_mul_left _ hdouble
        _ ≤ _ := Nat.le_add_right _ _
    · rw [← hgcd]
      refine ih (by omega) hmore hdecrease ?_ ?_ t1 _
      · have hsquare : 0 ≤ ((r0 / r1 : Nat) : Int) * (s1 * s1) := mul_nonneg (Nat.cast_nonneg _) (mul_self_nonneg s1)
        calc s1 * (s0 - (r0 / r1 : Nat) * s1) = s0 * s1 - (r0 / r1 : Nat) * (s1 * s1) := by ring
          _ ≤ 0 := by omega
      · rw [natAbs_sub_mul_of_opposite hsign, ← hsize]
        calc (s0.natAbs + r0 / r1 * s1.natAbs) * r1 + s1.natAbs * (r0 % r1)
            = s1.natAbs * (r1 * (r0 / r1) + r0 % r1) + s0.natAbs * r1 := by ring
          _ = _ := by rw [hdivision]

end Sys2Proof.Machine
end

section
/-! SUPPORT. `EGCD` of zero operands, of divisors and of swapped operands, and the sizes of its coefficients
(43_extended_euclid rules R87, R89, R91). -/

namespace Sys2Proof.Machine

@[simp] theorem egcd_zero_right (u : Nat) : egcd u 0 = (u, 1, 0) := rfl

theorem egcd_of_pos {u v : Nat} (hv : 0 < v) :
    egcd u v = egcdLoop v v (u % v) 0 1 1 (-(u / v : Nat)) := by
  rw [egcd, egcdLoop_of_pos hv]
  simp

theorem egcd_of_dvd {u v : Nat} (hv : 0 < v) (h : v ∣ u) : egcd u v = (v, 0, 1) := by
  rw [egcd_of_pos hv, Nat.mod_eq_zero_of_dvd h, egcdLoop_of_zero]

theorem egcd_zero_left {v : Nat} (hv : 0 < v) : egcd 0 v = (v, 0, 1) := egcd_of_dvd hv (dvd_zero v)

/-- For `u < v` the first line of the loop exchanges the operands, and with them the columns. -/
theorem egcd_swap_of_lt {u v : Nat} (h : u < v) : egcd v u = ((egcd u v).1, (egcd u v).2.2, (egcd u v).2.1) := by
  have hfirst : egcd u v = egcdLoop v v u 0 1 1 0 := by
    rw [egcd_of_pos (by omega), Nat.mod_eq_of_lt h, Nat.div_eq_of_lt h, Nat.cast_zero, neg_zero]
  rw [hfirst, egcd, egcdLoop_fuel u.lt_succ_self h, ← egcdLoop_swap]

theorem egcd_swap {u v : Nat} (h : u ≠ v) : egcd v u = ((egcd u v).1, (egcd u v).2.2, (egcd u v).2.1) := by
  rcases Nat.lt_or_gt_of_ne h with hlt | hgt
  · exact egcd_swap_of_lt hlt
  · rw [egcd_swap_of_lt hgt]

/-- Rule R89's factor 2, where the division of `u` by `v` does not end the loop at once. -/
theorem egcd_bound_of_not_dvd {u v g : Nat} {x y : Int} (h : egcd u v = (g, x, y)) (hv : 0 < v) (hdvd : ¬ v ∣ u) :
    2 * x.natAbs * g ≤ v ∧ 2 * y.natAbs * g ≤ u := by
  have hpos : 0 < u % v := Nat.pos_of_ne_zero fun hz => hdvd (Nat.dvd_of_mod_eq_zero hz)
  have hlt : u % v < v := Nat.mod_lt _ hv
  have hg : g = Nat.gcd v (u % v) := by rw [gcd_of_egcd h, Nat.gcd_comm v, ← Nat.gcd_rec, Nat.gcd_comm]
  rw [egcd_of_pos hv] at h
  have hx := egcdLoop_coefficient_bound (s0 := 0) (s1 := 1) (size := v) hlt hpos hlt (by simp) (by simp) 1
    (-(u / v : Nat))
  have hsign : (1 : Int) * -(u / v : Nat) ≤ 0 := by rw [one_mul]; exact neg_nonpos.2 (Nat.cast_nonneg _)
  have hsize : (-(u / v : Nat) : Int).natAbs * v + (1 : Int).natAbs * (u % v) = u := by
    rw [Int.natAbs_neg, Int.natAbs_natCast, Int.natAbs_one, one_mul, Nat.div_add_mod']
  have hy := egcdLoop_coefficient_bound hlt hpos hlt hsign hsize 0 1
  rw [h, ← hg] at hx
  rw [egcdLoop_swap, h, ← hg] at hy
  exact ⟨hx, hy⟩

theorem egcd_half_bound {u v g : Nat} {x y : Int} (h : egcd u v = (g, x, y)) (hu : 1 ≤ u) (hv : 1 ≤ v) :
    x.natAbs ≤ max 1 (v / (2 * g)) ∧ y.natAbs ≤ max 1 (u / (2 * g)) := by
  by_cases hdvd : v ∣ u
  · rw [egcd_of_dvd hv hdvd] at h
    cases h
    exact ⟨by simp, by simp⟩
  · have hg : 0 < 2 * g := by rw [gcd_of_egcd h]; exact Nat.mul_pos two_pos (Nat.gcd_pos_of_pos_left v hu)
    obtain ⟨hx, hy⟩ := egcd_bound_of_not_dvd h hv hdvd
    have hle {c w : Nat} (hc : 2 * c * g ≤ w) : c ≤ w / (2 * g) := (Nat.le_div_iff_mul_le hg).2 (by linarith)
    exact ⟨le_max_of_le_right (hle hx), le_max_of_le_right (hle hy)⟩

theorem max_one_half_le_div {v g : Nat} (hv : 1 ≤ v) (hg : g ∣ v) : max 1 (v / (2 * g)) ≤ v / g := by
  have hg0 : 0 < g := Nat.pos_of_dvd_of_pos hg hv
  exact max_le ((Nat.le_div_iff_mul_le hg0).2 (by simpa using Nat.le_of_dvd hv hg))
    (Nat.div_le_div_left (by omega) hg0)

theorem egcd_bound {u v g : Nat} {x y : Int} (h : egcd u v = (g, x, y)) (hu : 1 ≤ u) (hv : 1 ≤ v) :
    x.natAbs ≤ v / g ∧ y.natAbs ≤ u / g := by
  obtain ⟨hx, hy⟩ := egcd_half_bound h hu hv
  have hg := gcd_of_egcd h
  exact ⟨hx.trans (max_one_half_le_div hv (hg ▸ Nat.gcd_dvd_right u v)),
    hy.trans (max_one_half_le_div hu (hg ▸ Nat.gcd_dvd_left u v))⟩

theorem egcd_of_zero_operand {u v g : Nat} {x y : Int} (h : egcd u v = (g, x, y)) (hzero : u = 0 ∨ v = 0) :
    (x = 0 ∨ x = 1) ∧ (y = 0 ∨ y = 1) := by
  rcases Nat.eq_zero_or_pos v with rfl | hv
  · cases h; simp
  · obtain rfl : u = 0 := by omega
    rw [egcd_zero_left hv] at h
    cases h; simp

theorem gcd_le_max (u v : Nat) : Nat.gcd u v ≤ max u v := by
  rcases Nat.eq_zero_or_pos u with rfl | hu
  · simp
  · exact (Nat.gcd_le_left v hu).trans (le_max_left u v)

/-- Rule R89: the results fit every width that the operands fit. -/
theorem egcd_fits {u v g : Nat} {x y : Int} {bound : Nat} (h : egcd u v = (g, x, y)) (hu : u < bound) (hv : v < bound)
    (hone : 1 < bound) : x.natAbs < bound ∧ y.natAbs < bound ∧ g < bound := by
  have hg : g < bound := by
    rw [gcd_of_egcd h]
    exact (gcd_le_max u v).trans_lt (max_lt hu hv)
  by_cases hzero : u = 0 ∨ v = 0
  · obtain ⟨hx, hy⟩ := egcd_of_zero_operand h hzero
    exact ⟨by omega, by omega, hg⟩
  · obtain ⟨hx, hy⟩ := egcd_bound h (by omega) (by omega)
    exact ⟨(hx.trans (Nat.div_le_self v g)).trans_lt hv, (hy.trans (Nat.div_le_self u g)).trans_lt hu, hg⟩

/-- Operands of at least 2 need opposite signs to sum to 1. -/
theorem opposite_signs_of_sum_one {u v : Nat} {x y : Int} (hu : 2 ≤ u) (hv : 2 ≤ v) (h : (u : Int) * x + v * y = 1) :
    (x < 0 ∧ 0 < y) ∨ (0 < x ∧ y < 0) := by
  have hu' : (2 : Int) ≤ u := by exact_mod_cast hu
  have hv' : (2 : Int) ≤ v := by exact_mod_cast hv
  rcases lt_trichotomy x 0 with hx | rfl | hx
  · exact .inl ⟨hx, by nlinarith⟩
  · exact absurd (Int.isUnit_iff.1 (IsUnit.of_mul_eq_one y (by simpa using h))) (by omega)
  · exact .inr ⟨hx, by nlinarith⟩

end Sys2Proof.Machine
end

section
/-! PROOF. `XGCD`: zero operands, bounds and corner cases (43_extended_euclid rules R87, R89, R91). -/

namespace Sys2Proof.Machine

/-- Settles O23: a zero operand ends the loop at its start or after its first line. -/
theorem xgcdZeroOperands : Obligations.XgcdZeroOperands := by
  refine ⟨egcd_zero_right, rfl, fun v hv => egcd_zero_left hv, fun s hzero => ?_⟩
  rcases Nat.eq_zero_or_pos s.opb with hb | hb
  · have hegcd : egcd s.opa s.opb = (s.opa, 1, 0) := by rw [hb, egcd_zero_right]
    exact ⟨_, exec_xgcd_of_egcd hegcd, by simp, rfl⟩
  · have ha : s.opa = 0 := hzero.resolve_right hb.ne'
    have hegcd : egcd s.opa s.opb = (s.opb, 0, 1) := by rw [ha, egcd_zero_left hb]
    exact ⟨_, exec_xgcd_of_egcd hegcd, by simp, rfl⟩

/-- Settles O24, by the invariant of a column of the loop, `egcdLoop_coefficient_bound`. -/
theorem xgcdCoefficientsAreBounded : Obligations.XgcdCoefficientsAreBounded := by
  intro u v g x y h
  refine ⟨fun hu hv => ?_, egcd_of_zero_operand h, gcd_of_egcd h ▸ gcd_le_max u v, fun p hu hv => ?_,
    fun hu hv hcoprime => ?_⟩
  · obtain ⟨hx, hy⟩ := egcd_bound h hu hv
    exact ⟨hx, hy, egcd_half_bound h hu hv⟩
  · exact egcd_fits h hu hv (Nat.one_lt_two_pow (by have := p.legal; unfold Params.w; omega))
  · have hg : g = 1 := (gcd_of_egcd h).trans hcoprime
    exact opposite_signs_of_sum_one hu hv (by rw [bezout_of_egcd h, hg, Nat.cast_one])

/-- Settles O25, by `egcd_of_dvd` and the swap of the loop's columns. -/
theorem xgcdCornerCases : Obligations.XgcdCornerCases := by
  refine fun u v => ⟨fun hu => egcd_of_dvd hu dvd_rfl, fun hv hdvd => egcd_of_dvd hv hdvd, fun hdvd hlt hu => ?_,
    fun hne => egcd_swap hne⟩
  rw [egcd_swap hlt.ne', egcd_of_dvd hu hdvd]

end Sys2Proof.Machine
end

section
/-! PROOF. Every step keeps every register within its width (10_state rules R11 to R13). -/

namespace Sys2Proof.Machine

theorem RegistersFit.of_getReg {s t : State} (h : RegistersFit s) (hparams : t.params = s.params)
    (hreg : ∀ r, getReg t r = getReg s r) : RegistersFit t := fun r => by
  rw [hparams, hreg]
  exact h r

theorem RegistersFit.setReg {s : State} (h : RegistersFit s) {r : Reg} {v : Nat} (hv : v < 2 ^ regWidth s.params r) :
    RegistersFit (setReg r v s) := fun q => by
  rw [setReg_params]
  by_cases hq : q = r
  · subst hq; rwa [getReg_setReg_self]
  · rw [getReg_setReg_ne r q v s hq]; exact h q

theorem RegistersFit.complete {s : State} (h : RegistersFit s) {r0 r1 r2 r3 : Nat} (h0 : r0 < 2 ^ s.params.w)
    (h1 : r1 < 2 ^ s.params.w) (h2 : r2 < 2 ^ s.params.w) (h3 : r3 < 2 ^ s.params.w) (f : Flags) :
    RegistersFit (complete r0 r1 r2 r3 f s) := fun r => by
  cases r with
  | opa => exact h .opa
  | opb => exact h .opb
  | opp => exact h .opp
  | opq => exact h .opq
  | res0 => exact h0
  | res1 => exact h1
  | res2 => exact h2
  | res3 => exact h3

theorem RegistersFit.commandError {s : State} (h : RegistersFit s) (e : CommandError) :
    RegistersFit (commandError e s) :=
  (h.complete (Nat.two_pow_pos _) (Nat.two_pow_pos _) (Nat.two_pow_pos _) (Nat.two_pow_pos _) Flags.none).of_getReg rfl
    fun r => by cases r <;> rfl

theorem registersFit_of_zero {s : State} (h : ∀ r, getReg s r = 0) : RegistersFit s := fun r => by
  rw [h r]
  exact Nat.two_pow_pos _

/-- Rule R66: the ciphertext lies below the modulus. -/
theorem exec_modsqr_fits {s t : State} (h : RegistersFit s) (hexec : exec .modsqr s = .next t) : RegistersFit t := by
  rcases Nat.eq_zero_or_pos s.opb with hzero | hpos
  · rw [exec_modsqr_of_zero hzero] at hexec
    cases hexec
    exact h.commandError _
  · rw [exec_modsqr_of_pos hpos] at hexec
    cases hexec
    exact h.complete ((Nat.mod_lt _ hpos).trans (h .opb)) (Nat.two_pow_pos _) (Nat.two_pow_pos _) (Nat.two_pow_pos _) _

/-- Rule R76: the candidates lie below the product of two `K`-bit factors. -/
theorem exec_sqrtcrt_fits {s t : State} (h : RegistersFit s) (hexec : exec .sqrtcrt s = .next t) : RegistersFit t := by
  by_cases hok : s.opp % 4 = 3 ∧ s.opq % 4 = 3
  · obtain ⟨hp, hq⟩ := hok
    rcases hegcd : egcd s.opp s.opq with ⟨g, a, b⟩
    rw [exec_sqrtcrt_of_three_mod_four hp hq hegcd rfl rfl] at hexec
    cases hexec
    have hN : 0 < s.opp * s.opq := Nat.mul_pos (by omega) (by omega)
    have hfit : s.opp * s.opq < 2 ^ s.params.w := by
      rw [Params.w, two_mul, pow_add]
      exact Nat.mul_lt_mul'' (h .opp) (h .opq)
    exact h.complete ((crtCandidate_lt hN ..).trans hfit) ((crtCandidate_lt hN ..).trans hfit)
      ((crtCandidate_lt hN ..).trans hfit) ((crtCandidate_lt hN ..).trans hfit) _
  · rw [exec_sqrtcrt_of_bad_factor (by omega)] at hexec
    cases hexec
    exact h.commandError _

/-- Rule R89: the magnitudes and the gcd fit the width of the operands. -/
theorem exec_xgcd_fits {s t : State} (h : RegistersFit s) (hexec : exec .xgcd s = .next t) : RegistersFit t := by
  rcases hegcd : egcd s.opa s.opb with ⟨g, x, y⟩
  rw [exec_xgcd_of_egcd hegcd] at hexec
  cases hexec
  have hone : 1 < 2 ^ s.params.w := Nat.one_lt_two_pow (by have := s.params.legal; unfold Params.w; omega)
  obtain ⟨hx, hy, hg⟩ := egcd_fits hegcd (h .opa) (h .opb) hone
  exact h.complete hx hy hg (Nat.two_pow_pos _) _

/-- Settles O58: a host write is cut to its register, and each command's results are bounded by its operands. -/
theorem stepKeepsRegistersFit : Obligations.StepKeepsRegistersFit := by
  intro s t hs hstep
  have hdrop : RegistersFit (dropTurn s) := hs.of_getReg rfl (getReg_dropTurn s)
  cases step_effect hstep with
  | nothing => exact hdrop
  | reply x => exact hdrop.of_getReg rfl (getReg_recordReply x _)
  | issue v => exact hdrop.of_getReg rfl (getReg_issue v _)
  | store r j v => exact hdrop.setReg (setWord_lt _ _ _ _)
  | answer a => exact hdrop.of_getReg rfl (getReg_withAnswer _ _)
  | reset => exact registersFit_of_zero (getReg_blockReset _)
  | release => exact hdrop.of_getReg rfl (getReg_releaseReset _)
  | firstRequest => exact hdrop.of_getReg rfl (getReg_requestDraw _)
  | nextRequest => exact hdrop.of_getReg rfl fun r => by simp
  | completion w t hmoves hcommand hends =>
    cases hends with
    | error w e => exact hdrop.commandError e
    | modsqr => exact exec_modsqr_fits hdrop ((step_of_encode hmoves hcommand).symm.trans hstep)
    | sqrtcrt => exact exec_sqrtcrt_fits hdrop ((step_of_encode hmoves hcommand).symm.trans hstep)
    | xgcd => exact exec_xgcd_fits hdrop ((step_of_encode hmoves hcommand).symm.trans hstep)
    | mrtest =>
      exact hdrop.complete (Nat.two_pow_pos _) (Nat.two_pow_pos _) (Nat.two_pow_pos _) (Nat.two_pow_pos _) _
    | clr => exact registersFit_of_zero fun r => by cases r <;> rfl

end Sys2Proof.Machine
end

section
/-! PROOF. Every step keeps `STATUS` coherent (10_state rules R18 to R20, 60_exceptions rules R103, R110). -/

namespace Sys2Proof.Machine

theorem StatusCoherent.of_same {s t : State} (h : StatusCoherent s) (hstatus : t.status = s.status)
    (hresults : results t = results s) : StatusCoherent t := by
  simp only [results, List.cons.injEq, and_true] at hresults
  obtain ⟨h0, h1, h2, h3⟩ := hresults
  exact ⟨hstatus ▸ h.busy_not_done, hstatus ▸ h.errcode_iff_err, hstatus ▸ h.errcode_defined, hstatus ▸ h.err_done,
    hstatus ▸ h.no_flag_unless_done, hstatus ▸ h.err_no_flag, by rw [hstatus, h0, h1, h2, h3]; exact h.err_no_result,
    hstatus ▸ h.one_command_flags⟩

/-- Without a command error only the flags are left to agree. -/
theorem statusCoherent_of_no_error {s : State} (herr : s.status.err = false) (hcode : s.status.errcode = 0#4)
    (hbusy : ¬ (s.status.busy = true ∧ s.status.done = true))
    (hdone : s.status.done = false → s.status.flags = Flags.none)
    (hflags : s.status.flags.sx = true ∨ s.status.flags.sy = true →
      s.status.flags.prime = false ∧ s.status.flags.c3m4 = false ∧ s.status.flags.lenk = false) : StatusCoherent s where
  busy_not_done := hbusy
  errcode_iff_err := by simp [herr, hcode]
  errcode_defined := by simp [hcode]
  err_done := by simp [herr]
  no_flag_unless_done := hdone
  err_no_flag := by simp [herr]
  err_no_result := by simp [herr]
  one_command_flags := hflags

theorem statusCoherent_of_done {s : State} {f : Flags} (hstatus : s.status = doneStatus f)
    (hflags : f.sx = true ∨ f.sy = true → f.prime = false ∧ f.c3m4 = false ∧ f.lenk = false) : StatusCoherent s :=
  statusCoherent_of_no_error (by simp [hstatus]) (by simp [hstatus]) (by simp [hstatus]) (by simp [hstatus])
    (by simpa [hstatus])

theorem statusCoherent_issue (w : Word) (s : State) : StatusCoherent (issue w s) :=
  statusCoherent_of_no_error rfl rfl (by simp) (fun _ => rfl) (by simp)

theorem statusCoherent_of_zero {s : State} (hstatus : s.status = Status.zero) : StatusCoherent s :=
  statusCoherent_of_no_error (by simp [hstatus]) (by simp [hstatus]) (by simp [hstatus]) (by simp [hstatus])
    (by simp [hstatus])

theorem statusCoherent_commandError (e : CommandError) (s : State) : StatusCoherent (commandError e s) where
  busy_not_done := by simp
  errcode_iff_err := by rw [commandError_status]; cases e <;> decide
  errcode_defined := (errorCode_bounds e).2
  err_done := by simp
  no_flag_unless_done := by simp
  err_no_flag := by simp
  err_no_result := by simp
  one_command_flags := by simp

theorem CompletesIn.statusCoherent {s t : State} {w : Word} (h : CompletesIn s w t) : StatusCoherent t := by
  cases h with
  | error _ e => exact statusCoherent_commandError e s
  | modsqr => exact statusCoherent_of_done rfl (by simp)
  | sqrtcrt => exact statusCoherent_of_done rfl (by simp)
  | xgcd => exact statusCoherent_of_done rfl (by simp [xgcdFlags])
  | mrtest => exact statusCoherent_of_done rfl (by simp [mrtestFlags])
  | clr => exact statusCoherent_of_done rfl (by simp)

theorem results_setReg {r : Reg} (hr : regWritable r = true) (v : Nat) (s : State) :
    results (setReg r v s) = results s := by
  cases r with
  | opa | opb | opp | opq => rfl
  | res0 | res1 | res2 | res3 => cases hr

/-- Settles O59, by the effects of a step: issue, completion and reset write `STATUS`, each with a coherent value. -/
theorem stepKeepsStatusCoherent : Obligations.StepKeepsStatusCoherent := by
  intro s t hs hstep
  cases step_effect hstep with
  | nothing | reply | answer | release | firstRequest | nextRequest => exact hs.of_same rfl rfl
  | issue v => exact statusCoherent_issue v _
  | store r j v _ hwritable => exact hs.of_same (setReg_status ..) (results_setReg hwritable ..)
  | reset => exact statusCoherent_of_zero rfl
  | completion w t _ _ hends => exact hends.statusCoherent

end Sys2Proof.Machine
end

section
/-! PROOF. The reset state, and reset at any time (10_state rules R24 to R26, 70_reset_and_hazards rules R118, R119).
-/

namespace Sys2Proof.Machine

theorem atReset_resetOf (p : Params) : AtReset (State.resetOf p) := ⟨getReg_resetOf p, rfl, rfl, rfl, rfl⟩

theorem inv_resetOf (p : Params) : Inv (State.resetOf p) where
  fit := registersFit_of_zero (getReg_resetOf p)
  status := statusCoherent_of_zero rfl
  flight := flightCoherent_of_no_command rfl rfl rfl rfl fun _ => atReset_resetOf p

/-- Settles O57: the reset state has every register 0, `STATUS` 0 and nothing in flight. -/
theorem resetMeetsTheInvariants : Obligations.ResetMeetsTheInvariants := ⟨inv_resetOf Params.default, inv_resetOf⟩

/-- Settles O55: each field of the reset state by its value, and `PARAM` by its three fields. -/
theorem resetState : Obligations.ResetState := by
  refine ⟨fun p => ⟨getReg_resetOf p, rfl, ?_, rfl, rfl, rfl, rfl⟩, rfl⟩
  simp [readLoc, paramWord]

/-- What the reset state admits: an asserted reset shuts out issue and stores, and nothing in flight or outstanding
shuts out completions, answers and requests. -/
theorem atReset_of_step {s t : State} (hreset : s.inReset = true) (hs : AtReset s) (hstep : step s = .next t) :
    AtReset t ∧ (t.inReset = true ∨ s.turns.head? = some .release) := by
  have hdrop : dropsWrites s = true := (dropsWrites_iff s).2 (.inr hreset)
  cases step_effect hstep with
  | nothing => exact ⟨atReset_dropTurn hs, .inl hreset⟩
  | reply x => exact ⟨atReset_recordReply (atReset_dropTurn hs) x, .inl hreset⟩
  | reset => exact ⟨atReset_blockReset _, .inl rfl⟩
  | release hturn => exact ⟨atReset_releaseReset (atReset_dropTurn hs), .inr hturn⟩
  | issue _ hidle | store _ _ _ hidle => simp [hdrop] at hidle
  | answer _ hwaiting => simp [hs.rnd] at hwaiting
  | completion _ _ _ hcommand | firstRequest hcommand | nextRequest _ hcommand => simp [hs.command] at hcommand

/-- Settles O56: the assertion as an equation, what the reset state admits, and the release as an equation. -/
theorem resetAtAnyTime : Obligations.ResetAtAnyTime := by
  refine ⟨fun s rest hturn => ?_, fun s t => atReset_of_step, fun s rest hturn => ?_⟩
  · refine ⟨blockReset (dropTurn s), step_of_turns_cons s _ rest hturn, atReset_blockReset _, rfl, rfl, ?_, rfl, rfl⟩
    simp [hturn]
  · rw [step_of_turns_cons s _ rest hturn, dropTurn_of_turns_cons hturn]
    rfl

end Sys2Proof.Machine
end

section
/-! PROOF. Whole-machine rules: who writes results and operands, what a busy window keeps, and when a request is made
(10_state rule R13, 60_exceptions rule R114, 70_reset_and_hazards rules R122, R128). -/

namespace Sys2Proof.Machine

/-- Settles O50: of the effects of a step only completion and reset write result registers. -/
theorem onlyTheBlockWritesResults : Obligations.OnlyTheBlockWritesResults := by
  intro s t hstep hchange
  cases step_effect hstep with
  | nothing | reply | issue | answer | release | firstRequest | nextRequest => exact absurd rfl hchange
  | store r j v _ hwritable => exact absurd (results_setReg hwritable ..) hchange
  | reset hturn => exact .inl hturn
  | completion w t hmoves hcommand hends =>
    obtain ⟨hdone, -, -, -, hstatus, -⟩ := hends.frame
    exact .inr ⟨hmoves, by simp [hcommand], hdone, hstatus⟩

theorem CompletesIn.keeps_operand {s t : State} {w : Word} (h : CompletesIn s w t) (hw : w ≠ encode .clr) {r : Reg}
    (hr : regWritable r = true) : getReg t r = getReg s r := by
  have hkeeps (r0 r1 r2 r3 : Nat) (f : Flags) : getReg (complete r0 r1 r2 r3 f s) r = getReg s r := by
    cases r with
    | opa | opb | opp | opq => rfl
    | res0 | res1 | res2 | res3 => cases hr
  cases h with
  | error => exact hkeeps 0 0 0 0 Flags.none
  | modsqr | sqrtcrt | xgcd | mrtest => exact hkeeps ..
  | clr => exact absurd rfl hw

/-- Settles O51: of the effects of a step only a host write, the completion of `CLR` and reset write operands. -/
theorem operandsPersist : Obligations.OperandsPersist := by
  intro s t q hq hstep hchange
  cases step_effect hstep with
  | nothing | reply | issue | answer | release | firstRequest | nextRequest => exact absurd (by simp) hchange
  | store r j v hidle hwritable hj hturn =>
    obtain rfl : q = r := by
      by_contra hne
      exact hchange (by rw [getReg_setReg_ne _ _ _ _ hne, getReg_dropTurn])
    obtain ⟨hbusy, hreset⟩ := (dropsWrites_eq_false_iff s).1 hidle
    exact .inr (.inr ⟨v, j, hj, hbusy, hreset, hturn⟩)
  | reset hturn => exact .inl hturn
  | completion w t hmoves hcommand hends =>
    have hclr : w = encode .clr := by
      by_contra hne
      exact hchange (by rw [hends.keeps_operand hne hq, getReg_dropTurn])
    exact .inr (.inl ⟨hmoves, hclr ▸ hcommand⟩)

/-- A coherent busy `STATUS` is the one issue writes. -/
theorem StatusCoherent.eq_busyStatus {s : State} (h : StatusCoherent s) (hbusy : s.status.busy = true) :
    s.status = busyStatus := by
  have hdone : s.status.done = false := by simpa [hbusy] using h.busy_not_done
  have herr : s.status.err = false := by simpa [hdone] using h.err_done
  have hcode : s.status.errcode = 0#4 := by simpa [herr] using h.errcode_iff_err
  have hflags := h.no_flag_unless_done hdone
  calc s.status = ⟨s.status.busy, s.status.done, s.status.err, s.status.errcode, s.status.flags⟩ := rfl
    _ = busyStatus := by rw [hbusy, hdone, herr, hcode, hflags, busyStatus]

/-- Settles O52: in a busy state host writes are dropped and a completion ends the busy window, so only the port to
`rnd`, the replies and the release of reset are left. -/
theorem nothingChangesWhileBusy : Obligations.NothingChangesWhileBusy := by
  intro s t hs hbusy hstep hreset hstill
  have hdrop : dropsWrites s = true := (dropsWrites_iff s).2 (.inl hbusy)
  have hone : statusWord s.status = 0x00000001#32 := by rw [hs.eq_busyStatus hbusy]; rfl
  refine ⟨hone, ?_⟩
  cases step_effect hstep with
  | nothing | reply | answer | release | firstRequest | nextRequest => exact ⟨rfl, rfl, rfl, fun r => by simp⟩
  | issue _ hidle | store _ _ _ hidle => simp [hdrop] at hidle
  | reset hturn => exact absurd hturn hreset
  | completion w t _ _ hends =>
    obtain ⟨-, -, -, hidle, -⟩ := hends.frame
    simp [hidle] at hstill

/-- Settles O53: only the two requests of `MRTEST` change the count of requests. -/
theorem oneRequestAtATimeAndOnlyInMrtest : Obligations.OneRequestAtATimeAndOnlyInMrtest := by
  intro s t hstep hchange
  cases step_effect hstep with
  | nothing | reply | issue | answer | reset | release => exact absurd rfl hchange
  | store => exact absurd (by simp) hchange
  | completion w t _ _ hends =>
    obtain ⟨-, -, -, -, -, -, -, hsame⟩ := hends.frame
    exact absurd hsame hchange
  | firstRequest hcommand hdraws hidle =>
    exact ⟨rfl, by simp [hidle], rfl, hcommand, rfl, (mrWithoutDraws_none_iff _).1 hdraws⟩
  | nextRequest w hcommand hdraws hanswer =>
    exact ⟨rfl, by simp [hanswer], rfl, hcommand, rfl, (mrWithoutDraws_none_iff _).1 hdraws⟩

end Sys2Proof.Machine
end

section
/-! PROOF. The encoding of the commands and of `STATUS` (30_encoding rules R45, R46, R52, 10_state rule R18). -/

namespace Sys2Proof.Machine

/-- Settles O2: every instruction's word is read back, whatever its well-formedness check says. -/
theorem decodeOfEncode : Obligations.DecodeOfEncode := fun i _ => decode_encode i

/-- Settles O3: five words are the encodings of Table 30-B, and two are no encoding. -/
theorem tableWordsDecode : Obligations.TableWordsDecode :=
  ⟨decode_encode .modsqr, decode_encode .sqrtcrt, decode_encode .xgcd, decode_encode .mrtest, decode_encode .clr,
    by decide, by decide⟩

/-- Settles O47: each constant is `statusWord` of the fields that issue, completion or a command error writes. -/
theorem statusConstants : Obligations.StatusConstants := by
  refine ⟨by decide, by decide, by decide, by decide, by decide, by decide, by decide, by decide, ?_, ?_, ?_⟩
  · exact BitVec.eq_of_toNat_eq (statusWord_errorStatus_toNat .randomSourceFailure)
  · exact BitVec.eq_of_toNat_eq (statusWord_errorStatus_toNat .invalidModulus)
  · exact BitVec.eq_of_toNat_eq (statusWord_errorStatus_toNat .illegalCommand)

/-- The one-bit fields are binary digits. -/
theorem statusBits_le_one (st : Status) :
    st.busy.toNat ≤ 1 ∧ st.done.toNat ≤ 1 ∧ st.err.toNat ≤ 1 ∧ st.flags.sx.toNat ≤ 1 ∧ st.flags.sy.toNat ≤ 1 ∧
      st.flags.prime.toNat ≤ 1 ∧ st.flags.c3m4.toNat ≤ 1 ∧ st.flags.lenk.toNat ≤ 1 :=
  ⟨Bool.toNat_le _, Bool.toNat_le _, Bool.toNat_le _, Bool.toNat_le _, Bool.toNat_le _, Bool.toNat_le _,
    Bool.toNat_le _, Bool.toNat_le _⟩

/-- The fields of Table 10-B do not overlap and stay below bit 13, so the sum does not wrap. -/
theorem statusWord_toNat (st : Status) :
    (statusWord st).toNat = st.busy.toNat + 2 * st.done.toNat + 4 * st.err.toNat + 16 * st.errcode.toNat
      + 256 * st.flags.sx.toNat + 512 * st.flags.sy.toNat + 1024 * st.flags.prime.toNat
      + 2048 * st.flags.c3m4.toNat + 4096 * st.flags.lenk.toNat := by
  have hbits := statusBits_le_one st
  have hcode := st.errcode.isLt
  rw [statusWord, BitVec.toNat_ofNat]
  omega

theorem getLsbD_of_digit {w : Word} {i : Nat} {b : Bool} (h : w.toNat / 2 ^ i % 2 = b.toNat) : w.getLsbD i = b := by
  rw [BitVec.getLsbD, Nat.testBit_eq_decide_div_mod_eq, h]
  cases b <;> rfl

theorem extractLsb'_of_digits {w : Word} {first len : Nat} {x : BitVec len}
    (h : w.toNat / 2 ^ first % 2 ^ len = x.toNat) : w.extractLsb' first len = x := by
  apply BitVec.eq_of_toNat_eq
  rw [BitVec.extractLsb'_toNat, Nat.shiftRight_eq_div_pow, h]

/-- Settles O46: each field is a run of binary digits of the sum, and the reserved bits are digits that no field
reaches. -/
theorem statusWordLayout : Obligations.StatusWordLayout := by
  intro st
  have hbits := statusBits_le_one st
  have hcode := st.errcode.isLt
  have hreserved : (statusWord st).getLsbD 3 = false ∧ (statusWord st).extractLsb' 13 19 = 0#19 := by
    refine ⟨getLsbD_of_digit ?_, extractLsb'_of_digits ?_⟩
    · rw [statusWord_toNat, Bool.toNat_false]; omega
    · rw [statusWord_toNat, BitVec.toNat_ofNat]; omega
  refine ⟨getLsbD_of_digit ?_, getLsbD_of_digit ?_, getLsbD_of_digit ?_, hreserved.1, extractLsb'_of_digits ?_,
    getLsbD_of_digit ?_, getLsbD_of_digit ?_, getLsbD_of_digit ?_, getLsbD_of_digit ?_, getLsbD_of_digit ?_,
    hreserved.2⟩
  all_goals rw [statusWord_toNat]; omega

end Sys2Proof.Machine
end

section
/-! PROOF. The step by its turn: the block's turn, idle or with a command, the accesses that are refused, and the
answers of `rnd` (10_state rule R16, 20_memory rules R31, R33, 60_exceptions rule R114). -/

namespace Sys2Proof.Machine

theorem step_of_block {s : State} {rest : List Turn} (h : s.turns = .block :: rest) :
    step s = blockTurn { s with turns := rest } := by
  rw [step_of_turns_cons s _ rest h, dropTurn_of_turns_cons h, takeTurn]

/-- Settles O5: the block's turn decodes the word in flight. -/
theorem stepRunsDecodedCommand : Obligations.StepRunsDecodedCommand := by
  refine fun s w i _ hcommand hdecode => ⟨fun rest hturn => ?_, fun hturn => ?_⟩
  · rw [step_of_block hturn]
    exact blockTurn_ok _ w i hcommand hdecode
  · rw [step_of_turns_nil s hturn]
    exact blockTurn_ok s w i hcommand hdecode

/-- Settles O6: the block's turn with nothing in flight is idle. -/
theorem idleBlockChangesNothing : Obligations.IdleBlockChangesNothing := by
  refine fun s hcommand => ⟨fun rest hturn => ?_, fun hturn => ?_⟩
  · rw [step_of_block hturn]
    exact blockTurn_idle _ hcommand
  · rw [step_of_turns_nil s hturn]
    exact blockTurn_idle s hcommand

theorem hostRead_next_iff (i : Nat) (s : State) : (∃ t, hostRead i s = .next t) ↔ i < mapWords s.params := by
  rcases hostRead_cases i s with ⟨l, hl, h⟩ | ⟨hbeyond, h⟩
  · have hinside : ¬ mapWords s.params ≤ i := fun hle => by simp [(locate_none_iff _ _).2 hle] at hl
    simpa [h] using hinside
  · simpa [h] using hbeyond

theorem hostWrite_next_iff (i : Nat) (v : Word) (s : State) :
    (∃ t, hostWrite i v s = .next t) ↔ i < mapWords s.params := by
  rcases hostWrite_cases i v s with ⟨l, hl, h⟩ | ⟨hbeyond, h⟩
  · have hinside : ¬ mapWords s.params ≤ i := fun hle => by simp [(locate_none_iff _ _).2 hle] at hl
    rcases h with ⟨-, h⟩ | ⟨-, h⟩
    · simpa [h] using hinside
    · simpa [h] using hinside
  · simpa [h] using hbeyond

/-- Rules R31, R33: a turn answers a next state exactly when the port can carry it. -/
theorem takeTurn_next_iff (u : Turn) (s : State) : (∃ t, takeTurn u s = .next t) ↔ turnOk s.params u = true := by
  cases u with
  | block => exact iff_of_true (blockTurn_next s) rfl
  | read addr size =>
    rw [takeTurn, turnOk, accessInMap]
    cases oneAlignedWord addr size with
    | true => simpa using hostRead_next_iff (addr / 4) s
    | false => simp
  | write addr size v =>
    rw [takeTurn, turnOk, accessInMap]
    cases oneAlignedWord addr size with
    | true => simpa using hostWrite_next_iff (addr / 4) v s
    | false => simp
  | answer k a => exact iff_of_true ⟨_, rfl⟩ rfl
  | reset => exact iff_of_true ⟨_, rfl⟩ rfl
  | release => exact iff_of_true ⟨_, rfl⟩ rfl

theorem blockTurn_not_refused {s : State} {r : Refusal} : blockTurn s ≠ .refused r := by
  obtain ⟨t, h⟩ := blockTurn_next s
  simp [h]

/-- U8: the two refusals of a host access; no other turn is refused. -/
theorem takeTurn_refused {u : Turn} {s : State} {r : Refusal} (h : takeTurn u s = .refused r) :
    r = .notOneAlignedWord ∨ r = .beyondMap := by
  cases u with
  | block => exact absurd h blockTurn_not_refused
  | read addr size =>
    rw [takeTurn] at h
    split at h
    · rcases hostRead_cases (addr / 4) s with ⟨l, -, hnext⟩ | ⟨-, hrefused⟩
      · simp [hnext] at h
      · exact .inr (by simpa [hrefused, eq_comm] using h)
    · exact .inl (by simpa [eq_comm] using h)
  | write addr size v =>
    rw [takeTurn] at h
    split at h
    · rcases hostWrite_cases (addr / 4) v s with ⟨l, -, ⟨-, hnext⟩ | ⟨-, hnext⟩⟩ | ⟨-, hrefused⟩
      · simp [hnext] at h
      · simp [hnext] at h
      · exact .inr (by simpa [hrefused, eq_comm] using h)
    · exact .inl (by simpa [eq_comm] using h)
  | answer k a => cases h
  | reset => cases h
  | release => cases h

/-- Settles O8: with nothing scheduled the block moves, and a scheduled turn stops by `takeTurn_next_iff`. -/
theorem stepStopsOnlyOnBadAccess : Obligations.StepStopsOnlyOnBadAccess := by
  intro s
  cases hturn : s.turns with
  | nil =>
    rw [step_of_turns_nil s hturn]
    exact ⟨iff_of_true (blockTurn_next s) (by simp), fun r h => absurd h blockTurn_not_refused⟩
  | cons u rest =>
    rw [step_of_turns_cons s u rest hturn]
    exact ⟨(takeTurn_next_iff u (dropTurn s)).trans (by simp), fun r => takeTurn_refused⟩

theorem answerOnWires_of_fits {p : Params} {a : Answer} (h : ∀ w, a = .ok w → w < 2 ^ p.w) :
    answerOnWires p a = a := by
  cases a with
  | ok w => rw [answerOnWires, Nat.mod_eq_of_lt (h w rfl)]
  | fail => rfl

theorem acceptAnswer_of_outstanding {s : State} {k : Nat} (a : Answer) (hwaiting : s.rnd = .waiting)
    (hk : k = s.requests) : acceptAnswer k a s = withAnswer (answerOnWires s.params a) s := if_pos ⟨hwaiting, hk⟩

theorem acceptAnswer_of_late {s : State} {k : Nat} (a : Answer) (h : s.rnd ≠ .waiting ∨ k ≠ s.requests) :
    acceptAnswer k a s = s := if_neg (not_and_or.2 h)

theorem step_of_answer {s : State} {k : Nat} {a : Answer} {rest : List Turn} (h : s.turns = .answer k a :: rest) :
    step s = .next (acceptAnswer k a { s with turns := rest }) := by
  rw [step_of_turns_cons s _ rest h, dropTurn_of_turns_cons h, takeTurn]

/-- Settles O54: the two branches of `acceptAnswer`; a word of W bits passes the wires unchanged. -/
theorem answersReachOnlyTheirRequest : Obligations.AnswersReachOnlyTheirRequest := by
  refine fun s k a rest hturn => ⟨fun hwaiting hk hfits => ?_, fun hlate => ?_⟩
  · rw [step_of_answer hturn, acceptAnswer_of_outstanding (s := { s with turns := rest }) a hwaiting hk,
      answerOnWires_of_fits hfits, withAnswer]
  · rw [step_of_answer hturn, acceptAnswer_of_late (s := { s with turns := rest }) a hlate]

end Sys2Proof.Machine
end

section
/-! PROOF. Illegal words, and the commands that complete at once (30_encoding rule R48, 60_exceptions rule R106,
10_state rule R19). -/

namespace Sys2Proof.Machine

theorem forall_ne_encode_or (w : Word) : (∀ i, w ≠ encode i) ∨ ∃ i, w = encode i := by
  rw [or_comm, ← not_exists]
  exact em _

/-- Rule R48: a word that is no command's is illegal. -/
theorem decode_illegal {w : Word} (h : ∀ i, w ≠ encode i) : ∃ e, decode w = .error e := by
  cases hdecode : decode w with
  | error e => exact ⟨e, rfl⟩
  | ok i => exact absurd (decode_eq_ok_iff.1 hdecode) (h i)

theorem blockTurn_of_no_encode {s : State} {w : Word} (hcommand : s.command = some w) (h : ∀ i, w ≠ encode i) :
    blockTurn s = .next (commandError .illegalCommand s) := by
  obtain ⟨e, hdecode⟩ := decode_illegal h
  exact blockTurn_illegal s w e hcommand hdecode

theorem step_of_no_encode {s : State} {w : Word} (hmoves : BlockMoves s) (hcommand : s.command = some w)
    (h : ∀ i, w ≠ encode i) : step s = .next (commandError .illegalCommand (dropTurn s)) :=
  (step_of_blockMoves hmoves).trans (blockTurn_of_no_encode hcommand h)

/-- Settles O4: the write issues, and the block's turn finds a word that is no command's. -/
theorem illegalWordCompletesWithError : Obligations.IllegalWordCompletesWithError := by
  intro s w rest hmodsqr hsqrtcrt hxgcd hmrtest hclr hbusy hreset hturn
  have hno (i : Instr) : w ≠ encode i := by
    rw [encode_eq_tableWord]
    cases i <;> assumption
  have hissue : step s = .next (issue w { s with turns := .block :: rest }) :=
    step_write_word hturn rfl (locate_zero _) ((dropsWrites_eq_false_iff s).2 ⟨hbusy, hreset⟩)
  have hrun := step_of_block (s := issue w { s with turns := .block :: rest }) (rest := rest) rfl
  rw [blockTurn_of_no_encode (w := w) rfl hno] at hrun
  rw [runSteps_succ 1 hissue, runSteps_succ 0 hrun]
  rfl

/-- Settles O40: only an `MRTEST` can take a turn without completing. -/
theorem otherCommandsCompleteAtOnce : Obligations.OtherCommandsCompleteAtOnce := by
  intro s w hcommand hw hmoves
  rcases forall_ne_encode_or w with hno | ⟨i, rfl⟩
  · exact ⟨_, step_of_no_encode hmoves hcommand hno, rfl, rfl, rfl⟩
  · rw [step_of_encode hmoves hcommand]
    obtain ⟨t, hexec, hcases⟩ := exec_cases i (dropTurn s)
    refine ⟨t, hexec, ?_⟩
    rcases hcases with ⟨r0, r1, r2, r3, f, -, rfl⟩ | ⟨e, -, rfl⟩ | ⟨rfl, -⟩
    · exact ⟨rfl, rfl, rfl⟩
    · exact ⟨rfl, rfl, rfl⟩
    · exact absurd rfl hw

end Sys2Proof.Machine
end

section
/-! SUPPORT. One turn of `MRTEST` by its candidate and the port to `rnd`, as equations (40_primality_test rules R58 to
R61), and its flags in the words of rule R56. -/

namespace Sys2Proof.Machine

theorem exec_mrtest_of_no_draw {s : State} {prime : Bool} (h : mrWithoutDraws s.opa = some prime) :
    exec .mrtest s = .next (completeMrtest prime s) := by
  simp [exec, execMrtest, h]

theorem exec_mrtest_of_idle {s : State} (hdraws : mrWithoutDraws s.opa = none) (hrnd : s.rnd = .idle) :
    exec .mrtest s = .next (requestDraw s) := by
  simp [exec, execMrtest, hdraws, hrnd]

theorem exec_mrtest_of_waiting {s : State} (hdraws : mrWithoutDraws s.opa = none) (hrnd : s.rnd = .waiting) :
    exec .mrtest s = .next s := by
  simp [exec, execMrtest, hdraws, hrnd]

theorem exec_mrtest_of_fail {s : State} (hdraws : mrWithoutDraws s.opa = none) (hrnd : s.rnd = .answered .fail) :
    exec .mrtest s = .next (commandError .randomSourceFailure s) := by
  simp [exec, execMrtest, hdraws, hrnd]

theorem exec_mrtest_of_ok {s : State} {w : Nat} (hdraws : mrWithoutDraws s.opa = none)
    (hrnd : s.rnd = .answered (.ok w)) : exec .mrtest s = .next (mrtestRound w s) := by
  simp [exec, execMrtest, hdraws, hrnd]

theorem mrtestRound_of_failed {s : State} {w : Nat} (h : mrRoundPasses s.opa (mrBase s.opa w) = false) :
    mrtestRound w s = completeMrtest false s := by
  simp [mrtestRound, h]

theorem mrtestRound_of_last {s : State} {w : Nat} (h : mrRoundPasses s.opa (mrBase s.opa w) = true)
    (hlast : s.params.rounds ≤ s.round + 1) : mrtestRound w s = completeMrtest true s := by
  simp [mrtestRound, h, hlast.not_gt]

theorem mrtestRound_of_more {s : State} {w : Nat} (h : mrRoundPasses s.opa (mrBase s.opa w) = true)
    (hmore : s.round + 1 < s.params.rounds) : mrtestRound w s = requestDraw (countRound s) := by
  simp [mrtestRound, h, hmore]

theorem mrtestRound_cases (w : Nat) (s : State) :
    (∃ prime, mrtestRound w s = completeMrtest prime s) ∨ mrtestRound w s = requestDraw (countRound s) := by
  cases hpass : mrRoundPasses s.opa (mrBase s.opa w) with
  | false => exact .inl ⟨false, mrtestRound_of_failed hpass⟩
  | true =>
    rcases Nat.lt_or_ge (s.round + 1) s.params.rounds with hmore | hlast
    · exact .inr (mrtestRound_of_more hpass hmore)
    · exact .inl ⟨true, mrtestRound_of_last hpass hlast⟩

/-- The predecessor of an odd candidate is even. -/
theorem one_le_of_split {n k d : Nat} (hodd : n % 2 = 1) (hsplit : n - 1 = 2 ^ k * d) (hd : d % 2 = 1) : 1 ≤ k := by
  by_contra hzero
  obtain rfl : k = 0 := by omega
  rw [pow_zero, one_mul] at hsplit
  omega

theorem mrtestFlags_eq (p : Params) (n : Nat) (prime : Bool) :
    mrtestFlags p.k n prime =
      ⟨false, false, prime, decide (n % 4 = 3), decide (2 ^ (p.k - 1) ≤ n ∧ n < 2 ^ p.k)⟩ := by
  have hk : 0 < p.k := by have := p.legal; omega
  have hc3m4 : c3m4Flag n = decide (n % 4 = 3) := Bool.eq_iff_iff.2 (by simp [c3m4Flag_iff])
  have hlenk : lenkFlag p.k n = decide (2 ^ (p.k - 1) ≤ n ∧ n < 2 ^ p.k) :=
    Bool.eq_iff_iff.2 (by simp [lenkFlag_iff n hk])
  rw [mrtestFlags, hc3m4, hlenk]

theorem completeMrtest_eq (prime : Bool) (s : State) :
    completeMrtest prime s =
      complete 0 0 0 0 ⟨false, false, prime, decide (s.opa % 4 = 3),
        decide (2 ^ (s.params.k - 1) ≤ s.opa ∧ s.opa < 2 ^ s.params.k)⟩ s := by
  rw [completeMrtest, mrtestOperand_eq, mrtestFlags_eq]

end Sys2Proof.Machine
end

section
/-! PROOF. The turns of `MRTEST` (40_primality_test rules R58 to R61). -/

namespace Sys2Proof.Machine

/-- Settles O26: the candidates without draws complete with `completeMrtest`, whatever the port holds. -/
theorem mrtestSmallAndEvenNeedNoDraw : Obligations.MrtestSmallAndEvenNeedNoDraw := by
  intro s h
  rw [exec_mrtest_of_no_draw (mrWithoutDraws_some s.opa h), completeMrtest_eq]
  rfl

/-- Settles O27: with no answer in hand an `MRTEST` requests one draw and then waits. -/
theorem mrtestRequestsThenWaits : Obligations.MrtestRequestsThenWaits := by
  intro s hge hodd
  have hdraws := (mrWithoutDraws_none_iff s.opa).2 ⟨hge, hodd⟩
  exact ⟨fun hidle => exec_mrtest_of_idle hdraws hidle, fun hwaiting => exec_mrtest_of_waiting hdraws hwaiting⟩

/-- Settles O29: a failed draw is the command error, whose frame is `commandError`. -/
theorem mrtestFailedDrawIsAnError : Obligations.MrtestFailedDrawIsAnError := by
  intro s hge hodd hfail
  exact exec_mrtest_of_fail ((mrWithoutDraws_none_iff s.opa).2 ⟨hge, hodd⟩) hfail

/-- Settles O28: `mrRoundPasses_iff` turns the pass condition into the listing's verdict, and the three follow-ups are
the branches of `mrtestRound`. -/
theorem mrtestRoundFollowsListing : Obligations.MrtestRoundFollowsListing := by
  rintro s w k d a hge hodd hanswer hsplit hd rfl
  have hk := one_le_of_split hodd hsplit hd
  have hpass := mrRoundPasses_iff s.opa (mrBase s.opa w) k d (by omega) hsplit hd hk
  rw [exec_mrtest_of_ok ((mrWithoutDraws_none_iff s.opa).2 ⟨hge, hodd⟩) hanswer]
  refine ⟨fun hfailed => ?_, fun hpassed => ⟨fun hlast => ?_, fun hmore => ?_⟩⟩
  · rw [mrtestRound_of_failed (Bool.eq_false_iff.2 (mt hpass.1 hfailed)), completeMrtest_eq]
    rfl
  · rw [mrtestRound_of_last (hpass.2 hpassed) hlast, completeMrtest_eq]
    rfl
  · rw [mrtestRound_of_more (hpass.2 hpassed) hmore]
    rfl

end Sys2Proof.Machine
end

section
/-! PROOF. No false negative: a prime passes every round (40_primality_test rule R62 (a)). -/

namespace Sys2Proof.Machine

/-- Modulo a prime, 1 has no square roots but 1 and −1; so going down the squarings of a power that is 1, either the
lowest power is 1 or one of the others is −1. -/
theorem pow_odd_part_eq_one_or {n : Nat} [Fact n.Prime] (x : ZMod n) (k : Nat) (h : x ^ 2 ^ k = 1) :
    x = 1 ∨ ∃ j, j < k ∧ x ^ 2 ^ j = -1 := by
  induction k with
  | zero => exact .inl (by simpa using h)
  | succ k ih =>
    rw [pow_succ, pow_mul, sq, mul_self_eq_one_iff] at h
    rcases h with hone | hneg
    · rcases ih hone with hx | ⟨j, hj, hx⟩
      · exact .inl hx
      · exact .inr ⟨j, by omega, hx⟩
    · exact .inr ⟨k, by omega, hneg⟩

theorem natCast_eq_one_iff {n : Nat} (hn : 1 < n) (x : Nat) : (x : ZMod n) = 1 ↔ x % n = 1 := by
  rw [← Nat.cast_one, ZMod.natCast_eq_natCast_iff', Nat.mod_eq_of_lt hn]

theorem natCast_eq_neg_one_iff {n : Nat} (hn : 1 < n) (x : Nat) : (x : ZMod n) = -1 ↔ x % n = n - 1 := by
  have hneg : (-1 : ZMod n) = ((n - 1 : Nat) : ZMod n) := by simp [Nat.cast_pred (Nat.zero_lt_of_lt hn)]
  rw [hneg, ZMod.natCast_eq_natCast_iff', Nat.mod_eq_of_lt (by omega : n - 1 < n)]

theorem mrRoundPasses_of_prime {n a : Nat} (hn : n.Prime) (hge : 5 ≤ n) (ha : ¬ n ∣ a) : mrRoundPasses n a = true := by
  have : Fact n.Prime := ⟨hn⟩
  obtain ⟨k, d, hodd, hsplit⟩ := Nat.exists_eq_two_pow_mul_odd (show n - 1 ≠ 0 by omega)
  have hd : d % 2 = 1 := Nat.odd_iff.1 hodd
  have hk := one_le_of_split (hn.mod_two_eq_one_iff_ne_two.2 (by omega)) hsplit hd
  have hfermat : ((a : ZMod n) ^ d) ^ 2 ^ k = 1 := by
    rw [← pow_mul, mul_comm d, ← hsplit]
    exact ZMod.pow_card_sub_one_eq_one (mt (ZMod.natCast_eq_zero_iff a n).1 ha)
  rw [mrRoundPasses_iff n a k d (by omega) hsplit hd hk]
  rcases pow_odd_part_eq_one_or _ k hfermat with hone | ⟨j, hj, hneg⟩
  · exact .inl ((natCast_eq_one_iff hn.one_lt _).1 (by exact_mod_cast hone))
  · refine .inr ⟨j, hj, (natCast_eq_neg_one_iff hn.one_lt _).1 ?_⟩
    rw [mul_comm, pow_mul]
    exact_mod_cast hneg

/-- The base of a round is no multiple of the candidate (rule R59). -/
theorem mrRoundPasses_mrBase_of_prime {n : Nat} (hn : n.Prime) (hge : 5 ≤ n) (w : Nat) :
    mrRoundPasses n (mrBase n w) = true := by
  obtain ⟨hlow, hhigh⟩ := mrBase_range n w hge
  exact mrRoundPasses_of_prime hn hge (Nat.not_dvd_of_pos_of_lt (by omega) (by omega))

/-- The primes that need no draw are 2 and 3. -/
theorem mrWithoutDraws_of_prime {n : Nat} (hn : n.Prime) : mrWithoutDraws n = some true ∨ mrWithoutDraws n = none := by
  by_cases hsmall : n = 2 ∨ n = 3
  · exact .inl (by rw [mrWithoutDraws_some n (by omega), decide_eq_true hsmall])
  · have hodd : n % 2 = 1 := hn.mod_two_eq_one_iff_ne_two.2 (by omega)
    have htwo := hn.two_le
    exact .inr ((mrWithoutDraws_none_iff n).2 ⟨by omega, hodd⟩)

/-- Settles O31: 2 and 3 are told without a draw, and a prime of at least 5 passes the round of every draw. -/
theorem mrtestNeverRejectsAPrime : Obligations.MrtestNeverRejectsAPrime := by
  intro s hn hflight
  rcases mrWithoutDraws_of_prime hn with hsmall | hdraws
  · rw [exec_mrtest_of_no_draw hsmall]
    exact ⟨fun t h _ _ => by cases h; rfl, fun _ _ _ => ⟨_, rfl, rfl, rfl, rfl⟩⟩
  have hpass := mrRoundPasses_mrBase_of_prime hn ((mrWithoutDraws_none_iff _).1 hdraws).1
  refine ⟨fun t hexec hdone herr => ?_, fun w hanswer hlast => ?_⟩
  · match hrnd : s.rnd with
    | .idle => rw [exec_mrtest_of_idle hdraws hrnd] at hexec; cases hexec; exact absurd hdone hflight
    | .waiting => rw [exec_mrtest_of_waiting hdraws hrnd] at hexec; cases hexec; exact absurd hdone hflight
    | .answered .fail => rw [exec_mrtest_of_fail hdraws hrnd] at hexec; cases hexec; simp at herr
    | .answered (.ok w) =>
      rw [exec_mrtest_of_ok hdraws hrnd] at hexec
      cases hexec
      rcases Nat.lt_or_ge (s.round + 1) s.params.rounds with hmore | hlast
      · rw [mrtestRound_of_more (hpass w) hmore] at hdone
        exact absurd hdone hflight
      · rw [mrtestRound_of_last (hpass w) hlast]
        rfl
  · rw [exec_mrtest_of_ok hdraws hanswer, mrtestRound_of_last (hpass w) hlast]
    exact ⟨_, rfl, rfl, rfl, rfl⟩

end Sys2Proof.Machine
end

section
/-! PROOF. The causes of the command errors (60_exceptions rules R104 to R106, R108; Table 60-B). -/

namespace Sys2Proof.Machine

/-- Table 60-B for a command that completes: the error it ends in, if any. -/
def instrError (s : State) : Instr → Option CommandError
  | .modsqr => if s.opb = 0 then some .invalidModulus else none
  | .sqrtcrt => if s.opp % 4 = 3 ∧ s.opq % 4 = 3 then none else some .invalidModulus
  | .xgcd => none
  | .mrtest => if mrWithoutDraws s.opa = none ∧ s.rnd = .answered .fail then some .randomSourceFailure else none
  | .clr => none

/-- Table 60-B for a word in flight that completes. -/
def wordError (s : State) (w : Word) : Option CommandError :=
  match decode w with
  | .ok i => instrError s i
  | .error _ => some .illegalCommand

theorem wordError_encode (s : State) (i : Instr) : wordError s (encode i) = instrError s i := by
  rw [wordError, decode_encode]

theorem wordError_of_no_encode {w : Word} (s : State) (h : ∀ i, w ≠ encode i) :
    wordError s w = some .illegalCommand := by
  obtain ⟨e, hdecode⟩ := decode_illegal h
  rw [wordError, hdecode]

/-- `STATUS` after a completion that ends in the error `e?`, or in flags. -/
def EndsWith (e? : Option CommandError) (t : State) : Prop := ∃ f, t.status = e?.elim (doneStatus f) errorStatus

theorem endsWith_complete (r0 r1 r2 r3 : Nat) (f : Flags) (s : State) : EndsWith none (complete r0 r1 r2 r3 f s) :=
  ⟨f, rfl⟩

theorem endsWith_commandError (e : CommandError) (s : State) : EndsWith (some e) (commandError e s) :=
  ⟨Flags.none, rfl⟩

theorem execMrtest_endsWith {s t : State} (hflight : s.command ≠ none) (hexec : exec .mrtest s = .next t)
    (hdone : t.command = none) : EndsWith (instrError s .mrtest) t := by
  cases hdraws : mrWithoutDraws s.opa with
  | some prime =>
    rw [exec_mrtest_of_no_draw hdraws] at hexec
    cases hexec
    rw [instrError, if_neg (by simp [hdraws])]
    exact endsWith_complete ..
  | none =>
    match hrnd : s.rnd with
    | .idle => rw [exec_mrtest_of_idle hdraws hrnd] at hexec; cases hexec; exact absurd hdone hflight
    | .waiting => rw [exec_mrtest_of_waiting hdraws hrnd] at hexec; cases hexec; exact absurd hdone hflight
    | .answered .fail =>
      rw [exec_mrtest_of_fail hdraws hrnd] at hexec
      cases hexec
      rw [instrError, if_pos ⟨hdraws, hrnd⟩]
      exact endsWith_commandError ..
    | .answered (.ok w) =>
      rw [exec_mrtest_of_ok hdraws hrnd] at hexec
      cases hexec
      rw [instrError, if_neg (by simp [hrnd])]
      rcases mrtestRound_cases w s with ⟨prime, hround⟩ | hround
      · rw [hround]
        exact endsWith_complete ..
      · rw [hround] at hdone
        exact absurd hdone hflight

theorem exec_endsWith {i : Instr} {s t : State} (hflight : s.command ≠ none) (hexec : exec i s = .next t)
    (hdone : t.command = none) : EndsWith (instrError s i) t := by
  cases i with
  | modsqr =>
    rcases Nat.eq_zero_or_pos s.opb with hzero | hpos
    · rw [exec_modsqr_of_zero hzero] at hexec
      cases hexec
      rw [instrError, if_pos hzero]
      exact endsWith_commandError ..
    · rw [exec_modsqr_of_pos hpos] at hexec
      cases hexec
      rw [instrError, if_neg hpos.ne']
      exact endsWith_complete ..
  | sqrtcrt =>
    by_cases hok : s.opp % 4 = 3 ∧ s.opq % 4 = 3
    · rw [exec_sqrtcrt_of_three_mod_four hok.1 hok.2 rfl rfl rfl] at hexec
      cases hexec
      rw [instrError, if_pos hok]
      exact endsWith_complete ..
    · rw [exec_sqrtcrt_of_bad_factor (by omega)] at hexec
      cases hexec
      rw [instrError, if_neg hok]
      exact endsWith_commandError ..
  | xgcd => cases hexec; exact endsWith_complete ..
  | mrtest => exact execMrtest_endsWith hflight hexec hdone
  | clr => cases hexec; exact endsWith_complete ..

/-- The operands and the port are those of before the step. -/
theorem wordError_dropTurn (s : State) (w : Word) : wordError (dropTurn s) w = wordError s w := rfl

theorem step_endsWith {s t : State} {w : Word} (hcommand : s.command = some w) (hmoves : BlockMoves s)
    (hstep : step s = .next t) (hdone : t.command = none) : EndsWith (wordError s w) t := by
  rw [← wordError_dropTurn]
  rcases forall_ne_encode_or w with hno | ⟨i, rfl⟩
  · rw [step_of_no_encode hmoves hcommand hno] at hstep
    cases hstep
    rw [wordError_of_no_encode _ hno]
    exact endsWith_commandError ..
  · rw [step_of_encode hmoves hcommand] at hstep
    rw [wordError_encode]
    exact exec_endsWith (by simp [hcommand]) hstep hdone

@[simp] theorem errorCode_inj {e e' : CommandError} : errorCode e = errorCode e' ↔ e = e' := by
  cases e <;> cases e' <;> decide

@[simp] theorem errorCode_ne_zero (e : CommandError) : errorCode e ≠ 0#4 := by
  cases e <;> decide

theorem EndsWith.errcode_iff {e? : Option CommandError} {t : State} (h : EndsWith e? t) (e : CommandError) :
    t.status.errcode = errorCode e ↔ e? = some e := by
  obtain ⟨f, hstatus⟩ := h
  rw [hstatus]
  cases e? with
  | none => simpa using (errorCode_ne_zero e).symm
  | some e' => simp

theorem EndsWith.err_iff {e? : Option CommandError} {t : State} (h : EndsWith e? t) :
    (t.status.err = true ↔ t.status.errcode ≠ 0#4) ∧ t.status.errcode.toNat ≤ 3 := by
  obtain ⟨f, hstatus⟩ := h
  rw [hstatus]
  cases e? with
  | none => simp
  | some e => simpa using (errorCode_bounds e).2

theorem wordError_illegal_iff (s : State) (w : Word) : wordError s w = some .illegalCommand ↔ ∀ i, w ≠ encode i := by
  rcases forall_ne_encode_or w with hno | ⟨i, rfl⟩
  · exact iff_of_true (wordError_of_no_encode s hno) hno
  · rw [wordError_encode]
    refine iff_of_false ?_ fun hno => hno i rfl
    cases i <;> simp [instrError]

theorem wordError_invalid_iff (s : State) (w : Word) :
    wordError s w = some .invalidModulus ↔
      (w = encode .modsqr ∧ s.opb = 0) ∨ (w = encode .sqrtcrt ∧ (s.opp % 4 ≠ 3 ∨ s.opq % 4 ≠ 3)) := by
  rcases forall_ne_encode_or w with hno | ⟨i, rfl⟩
  · simp [wordError_of_no_encode s hno, hno]
  · rw [wordError_encode]
    cases i <;> simp [instrError, imp_iff_not_or]

theorem wordError_random_iff (s : State) (w : Word) :
    wordError s w = some .randomSourceFailure ↔
      w = encode .mrtest ∧ 5 ≤ s.opa ∧ s.opa % 2 = 1 ∧ s.rnd = .answered .fail := by
  rcases forall_ne_encode_or w with hno | ⟨i, rfl⟩
  · simp [wordError_of_no_encode s hno, hno]
  · rw [wordError_encode]
    cases i <;> simp [instrError, mrWithoutDraws_none_iff, and_assoc]

/-- Settles O37: `STATUS` after a completion is that of `wordError`, read off Table 60-B code by code. -/
theorem commandErrorsHaveExactlyTheirCauses : Obligations.CommandErrorsHaveExactlyTheirCauses := by
  intro s t w hcommand hmoves hstep hdone
  have hends := step_endsWith hcommand hmoves hstep hdone
  exact ⟨(hends.errcode_iff .illegalCommand).trans (wordError_illegal_iff s w),
    (hends.errcode_iff .invalidModulus).trans (wordError_invalid_iff s w),
    (hends.errcode_iff .randomSourceFailure).trans (wordError_random_iff s w), hends.err_iff⟩

end Sys2Proof.Machine
end

section
/-! PROOF. Commands are pure (10_state rule R23): two states that agree on what a command reads see one outcome. -/

namespace Sys2Proof.Machine

/-- Both complete, with the same results and `STATUS`, or neither does. -/
def SameOutcome (t t' : State) : Prop :=
  (t.command = none ↔ t'.command = none) ∧ (t.command = none → results t = results t' ∧ t.status = t'.status)

/-- Both turns answer next states, with the same outcome. -/
def Agree (o o' : Host.Outcome State Fault Refusal) : Prop :=
  ∃ t t', o = .next t ∧ o' = .next t' ∧ SameOutcome t t'

theorem Agree.sameOutcome {t t' : State} (h : Agree (.next t) (.next t')) : SameOutcome t t' := by
  obtain ⟨u, u', hu, hu', hsame⟩ := h
  cases hu; cases hu'
  exact hsame

theorem sameOutcome_complete (r0 r1 r2 r3 : Nat) (f : Flags) (s s' : State) :
    SameOutcome (complete r0 r1 r2 r3 f s) (complete r0 r1 r2 r3 f s') := ⟨Iff.rfl, fun _ => ⟨rfl, rfl⟩⟩

theorem sameOutcome_commandError (e : CommandError) (s s' : State) :
    SameOutcome (commandError e s) (commandError e s') := ⟨Iff.rfl, fun _ => ⟨rfl, rfl⟩⟩

theorem sameOutcome_of_flight {t t' : State} {w : Word} (h : t.command = some w) (h' : t'.command = some w) :
    SameOutcome t t' := ⟨by simp [h, h'], by simp [h]⟩

theorem exec_modsqr_agree {s s' : State} (hopa : s.opa = s'.opa) (hopb : s.opb = s'.opb) :
    Agree (exec .modsqr s) (exec .modsqr s') := by
  rcases Nat.eq_zero_or_pos s.opb with hzero | hpos
  · exact ⟨_, _, exec_modsqr_of_zero hzero, exec_modsqr_of_zero (hopb ▸ hzero), sameOutcome_commandError ..⟩
  · refine ⟨_, _, exec_modsqr_of_pos hpos, exec_modsqr_of_pos (hopb ▸ hpos), ?_⟩
    rw [hopa, hopb]
    exact sameOutcome_complete ..

theorem exec_sqrtcrt_agree {s s' : State} (hopa : s.opa = s'.opa) (hopp : s.opp = s'.opp) (hopq : s.opq = s'.opq) :
    Agree (exec .sqrtcrt s) (exec .sqrtcrt s') := by
  by_cases hok : s.opp % 4 = 3 ∧ s.opq % 4 = 3
  · obtain ⟨hp, hq⟩ := hok
    refine ⟨_, _, exec_sqrtcrt_of_three_mod_four hp hq rfl rfl rfl,
      exec_sqrtcrt_of_three_mod_four (hopp ▸ hp) (hopq ▸ hq) rfl rfl rfl, ?_⟩
    rw [hopa, hopp, hopq]
    exact sameOutcome_complete ..
  · exact ⟨_, _, exec_sqrtcrt_of_bad_factor (by omega), exec_sqrtcrt_of_bad_factor (by omega),
      sameOutcome_commandError ..⟩

theorem exec_xgcd_agree {s s' : State} (hopa : s.opa = s'.opa) (hopb : s.opb = s'.opb) :
    Agree (exec .xgcd s) (exec .xgcd s') := by
  refine ⟨_, _, exec_xgcd_of_egcd rfl, exec_xgcd_of_egcd rfl, ?_⟩
  rw [hopa, hopb]
  exact sameOutcome_complete ..

theorem completeMrtest_sameOutcome {s s' : State} (hparams : s.params = s'.params) (hopa : s.opa = s'.opa)
    (prime : Bool) : SameOutcome (completeMrtest prime s) (completeMrtest prime s') := by
  rw [completeMrtest_eq, completeMrtest_eq, hparams, hopa]
  exact sameOutcome_complete ..

section
variable {s s' : State} {w : Word} (hcommand : s.command = some w) (hcommand' : s'.command = some w)
  (hparams : s.params = s'.params) (hopa : s.opa = s'.opa) (hround : s.round = s'.round)
include hcommand hcommand' hparams hopa hround

theorem mrtestRound_sameOutcome (x : Nat) : SameOutcome (mrtestRound x s) (mrtestRound x s') := by
  cases hpass : mrRoundPasses s.opa (mrBase s.opa x) with
  | false =>
    rw [mrtestRound_of_failed hpass, mrtestRound_of_failed (hopa ▸ hpass)]
    exact completeMrtest_sameOutcome hparams hopa false
  | true =>
    rcases Nat.lt_or_ge (s.round + 1) s.params.rounds with hmore | hlast
    · rw [mrtestRound_of_more hpass hmore, mrtestRound_of_more (hopa ▸ hpass) (hround ▸ hparams ▸ hmore)]
      exact sameOutcome_of_flight hcommand hcommand'
    · rw [mrtestRound_of_last hpass hlast, mrtestRound_of_last (hopa ▸ hpass) (hround ▸ hparams ▸ hlast)]
      exact completeMrtest_sameOutcome hparams hopa true

theorem exec_mrtest_agree (hrnd : s.rnd = s'.rnd) : Agree (exec .mrtest s) (exec .mrtest s') := by
  cases hdraws : mrWithoutDraws s.opa with
  | some prime =>
    exact ⟨_, _, exec_mrtest_of_no_draw hdraws, exec_mrtest_of_no_draw (hopa ▸ hdraws),
      completeMrtest_sameOutcome hparams hopa prime⟩
  | none =>
    have hdraws' : mrWithoutDraws s'.opa = none := hopa ▸ hdraws
    match hport : s.rnd with
    | .idle =>
      exact ⟨_, _, exec_mrtest_of_idle hdraws hport, exec_mrtest_of_idle hdraws' (hrnd ▸ hport),
        sameOutcome_of_flight (w := w) hcommand hcommand'⟩
    | .waiting =>
      exact ⟨_, _, exec_mrtest_of_waiting hdraws hport, exec_mrtest_of_waiting hdraws' (hrnd ▸ hport),
        sameOutcome_of_flight hcommand hcommand'⟩
    | .answered .fail =>
      exact ⟨_, _, exec_mrtest_of_fail hdraws hport, exec_mrtest_of_fail hdraws' (hrnd ▸ hport),
        sameOutcome_commandError ..⟩
    | .answered (.ok x) =>
      exact ⟨_, _, exec_mrtest_of_ok hdraws hport, exec_mrtest_of_ok hdraws' (hrnd ▸ hport),
        mrtestRound_sameOutcome hcommand hcommand' hparams hopa hround x⟩

end

/-- Settles O39, command by command: each outcome is a function of the operands of the command's reads column. -/
theorem commandsArePure : Obligations.CommandsArePure := by
  intro s s' t t' w hcommand hcommand' hmoves hmoves' hparams hpair hfactors hdraw hstep hstep'
  suffices hagree : Agree (step s) (step s') by
    rw [hstep, hstep'] at hagree
    exact hagree.sameOutcome
  rcases forall_ne_encode_or w with hno | ⟨i, rfl⟩
  · exact ⟨_, _, step_of_no_encode hmoves hcommand hno, step_of_no_encode hmoves' hcommand' hno,
      sameOutcome_commandError ..⟩
  · rw [step_of_encode hmoves hcommand, step_of_encode hmoves' hcommand']
    cases i with
    | modsqr =>
      obtain ⟨hopa, hopb⟩ := hpair (.inl rfl)
      exact exec_modsqr_agree hopa hopb
    | sqrtcrt =>
      obtain ⟨hopa, hopp, hopq⟩ := hfactors rfl
      exact exec_sqrtcrt_agree hopa hopp hopq
    | xgcd =>
      obtain ⟨hopa, hopb⟩ := hpair (.inr rfl)
      exact exec_xgcd_agree hopa hopb
    | mrtest =>
      obtain ⟨hopa, hrnd, hround⟩ := hdraw rfl
      exact exec_mrtest_agree (s := dropTurn s) (s' := dropTurn s') hcommand hcommand' hparams hopa hround hrnd
    | clr => exact ⟨_, _, exec_clr _, exec_clr _, sameOutcome_complete ..⟩

end Sys2Proof.Machine
end

section
/-! PROOF. Corner cases of `MODSQR` (41_modular_squarer rule R70). -/

namespace Sys2Proof.Machine

theorem sq_sub_modEq {m n : Nat} (h : m ≤ n) : (n - m) * (n - m) ≡ m * m [MOD n] := by
  rw [← ZMod.natCast_eq_natCast_iff]
  push_cast [h]
  simp

/-- Settles O12, on the equation of `MODSQR`: 0 and `N` are 0 modulo `N`, `N − 1` and `N − m` are −1 and −m. -/
theorem modsqrCornerCases : Obligations.ModsqrCornerCases := by
  intro s t hN hexec
  rw [exec_modsqr_of_pos hN] at hexec
  cases hexec
  simp only [complete_res0]
  refine ⟨fun h => by simp [h], fun h => by rw [h], fun h => by simp [h], fun htwo h => ?_, fun hle => ?_⟩
  · rw [h]
    calc (s.opb - 1) * (s.opb - 1) % s.opb = 1 * 1 % s.opb := sq_sub_modEq hN
      _ = 1 := Nat.mod_eq_of_lt htwo
  · exact ⟨_, exec_modsqr_of_pos hN, sq_sub_modEq hle⟩

end Sys2Proof.Machine
end

section
/-! SUPPORT. The candidates of 42_sqrt_crt rule R76 by their residues: for coprime factors a candidate is the one
number below `p·q` with its half roots as residues (rules R78 (c), R82). -/

namespace Sys2Proof.Machine

/-- `x` is the number below `p·q` that is `r` modulo `p` and `u` modulo `q`. -/
structure CrtResidues (p q r u x : Nat) : Prop where
  lt : x < p * q
  left : x ≡ r [MOD p]
  right : x ≡ u [MOD q]

theorem CrtResidues.unique {p q r u x y : Nat} (hcoprime : Nat.Coprime p q) (hx : CrtResidues p q r u x)
    (hy : CrtResidues p q r u y) : x = y := by
  have hmod : x ≡ y [MOD p * q] := (Nat.modEq_and_modEq_iff_modEq_mul hcoprime).1
    ⟨hx.left.trans hy.left.symm, hx.right.trans hy.right.symm⟩
  exact hmod.eq_of_lt_of_lt hx.lt hy.lt

theorem CrtResidues.swap {p q r u x : Nat} (h : CrtResidues p q r u x) : CrtResidues q p u r x :=
  ⟨mul_comm p q ▸ h.lt, h.right, h.left⟩

/-- Opposites modulo a divisor of `n`. -/
theorem sub_modEq_sub {n p x r : Nat} (hdvd : p ∣ n) (hx : x ≤ n) (hr : r ≤ p) (h : x ≡ r [MOD p]) :
    n - x ≡ p - r [MOD p] := by
  refine Nat.ModEq.add_right_cancel h ?_
  rw [Nat.sub_add_cancel hx, Nat.sub_add_cancel hr]
  exact (Nat.modEq_zero_iff_dvd.2 hdvd).trans (Nat.modEq_zero_iff_dvd.2 dvd_rfl).symm

theorem CrtResidues.neg {p q r u x : Nat} (h : CrtResidues p q r u x) (hr : r ≤ p) (hu : u ≤ q) :
    CrtResidues p q (p - r) (q - u) ((p * q - x) % (p * q)) where
  lt := Nat.mod_lt _ (by have := h.lt; omega)
  left := ((Nat.mod_modEq _ _).of_mul_right q).trans (sub_modEq_sub (Nat.dvd_mul_right p q) h.lt.le hr h.left)
  right := ((Nat.mod_modEq _ _).of_mul_left p).trans (sub_modEq_sub (Nat.dvd_mul_left q p) h.lt.le hu h.right)

theorem crtCandidate_swap (a b : Int) (p q r u : Nat) : crtCandidate a b p q r u = crtCandidate b a q p u r := by
  rw [crtCandidate, crtCandidate, add_comm, mul_comm p q]

/-- A candidate depends on each half root modulo its factor only, coprime or not. -/
theorem crtCandidate_congr {p q r r' u u' : Nat} (a b : Int) (hr : r ≡ r' [MOD p]) (hu : u ≡ u' [MOD q]) :
    crtCandidate a b p q r u = crtCandidate a b p q r' u' := by
  have hterm {m n x y : Nat} (c : Int) (h : x ≡ y [MOD n]) : c * m * x ≡ c * m * y [ZMOD (m * n : Nat)] := by
    rw [mul_assoc, mul_assoc, Nat.cast_mul]
    exact ((Int.natCast_modEq_iff.2 h).mul_left' (c := (m : Int))).mul_left c
  have hleft : b * q * r ≡ b * q * r' [ZMOD (p * q : Nat)] := mul_comm p q ▸ hterm b hr
  exact congrArg Int.toNat ((hterm a hu).add hleft)

theorem crtCandidate_left {p q : Nat} (hN : 0 < p * q) {a b : Int} (hbezout : a * p + b * q = 1) (r u : Nat) :
    crtCandidate a b p q r u ≡ r [MOD p] := by
  rw [← Int.natCast_modEq_iff, crtCandidate_cast hN, Nat.cast_mul]
  have hsum : a * p * u + b * q * r = r + p * (a * (u - r)) := by linear_combination (r : Int) * hbezout
  rw [hsum]
  exact ((Int.mod_modEq _ _).of_mul_right q).trans (Int.add_mul_emod_self_left ..)

theorem crtCandidate_residues {p q : Nat} (hN : 0 < p * q) {a b : Int} (hbezout : a * p + b * q = 1) (r u : Nat) :
    CrtResidues p q r u (crtCandidate a b p q r u) where
  lt := crtCandidate_lt hN ..
  left := crtCandidate_left hN hbezout r u
  right := by
    rw [crtCandidate_swap]
    exact crtCandidate_left (mul_comm p q ▸ hN) (by rw [add_comm, hbezout]) u r

theorem coprime_of_bezout {p q : Nat} {a b : Int} (h : a * p + b * q = 1) : Nat.Coprime p q :=
  Nat.isCoprime_iff_coprime.1 ⟨a, b, h⟩

theorem bezout_of_coprime {p q g : Nat} {a b : Int} (h : egcd p q = (g, a, b)) (hcoprime : Nat.Coprime p q) :
    a * p + b * q = 1 := by
  have hbezout := bezout_of_egcd h
  rw [gcd_of_egcd h, hcoprime] at hbezout
  rw [mul_comm a, mul_comm b, hbezout, Nat.cast_one]

end Sys2Proof.Machine
end

section
/-! SUPPORT. The half roots of `SQRTCRT` and their squares (42_sqrt_crt rules R74, R78, R79), and the results of the
command by their residues. -/

namespace Sys2Proof.Machine

/-- `c^((p+1)/4) mod p` (rule R74). -/
def halfRoot (c p : Nat) : Nat := c ^ ((p + 1) / 4) % p

theorem halfRoot_lt {p : Nat} (hp : p % 4 = 3) (c : Nat) : halfRoot c p < p := Nat.mod_lt _ (by omega)

theorem halfRoot_congr {c c' p : Nat} (h : c ≡ c' [MOD p]) : halfRoot c p = halfRoot c' p := h.pow _

theorem halfRoot_of_dvd {c p : Nat} (hp : p % 4 = 3) (h : c % p = 0) : halfRoot c p = 0 :=
  Nat.mod_eq_zero_of_dvd ((Nat.dvd_of_mod_eq_zero h).trans (dvd_pow_self c (by omega)))

theorem halfRoot_ne_zero {c p : Nat} (hp : p.Prime) (h : c % p ≠ 0) : halfRoot c p ≠ 0 := fun hzero =>
  h (Nat.mod_eq_zero_of_dvd (hp.dvd_of_dvd_pow (Nat.dvd_of_mod_eq_zero hzero)))

theorem halfRoot_one {p : Nat} (hp : p % 4 = 3) : halfRoot 1 p = 1 := by
  rw [halfRoot, one_pow, Nat.mod_eq_of_lt (by omega)]

/-- Euler's exponent stands in the square of a half root. -/
theorem halfRoot_sq {p : Nat} (hp : p % 4 = 3) (c : Nat) :
    ((halfRoot c p * halfRoot c p : Nat) : ZMod p) = c * (c : ZMod p) ^ (p / 2) := by
  have hexponent : (p + 1) / 4 + (p + 1) / 4 = p / 2 + 1 := by omega
  rw [halfRoot, Nat.cast_mul, ZMod.natCast_mod, Nat.cast_pow, ← pow_add, hexponent, pow_succ']

theorem isSquare_iff_exists_modEq {p : Nat} (hp : 0 < p) (c : Nat) :
    IsSquare (c : ZMod p) ↔ ∃ y, y * y % p = c % p := by
  have : NeZero p := ⟨hp.ne'⟩
  refine ⟨fun ⟨x, hx⟩ => ⟨x.val, ?_⟩, fun ⟨y, hy⟩ => ⟨y, ?_⟩⟩
  · rw [← ZMod.natCast_eq_natCast_iff', Nat.cast_mul, ZMod.natCast_zmod_val, hx]
  · rw [← Nat.cast_mul, ZMod.natCast_eq_natCast_iff', hy]

/-- Rule R78 (a): the half root of a square is a square root. -/
theorem halfRoot_sq_of_square {p c : Nat} (hprime : p.Prime) (hp : p % 4 = 3) (h : ∃ y, y * y % p = c % p) :
    halfRoot c p * halfRoot c p ≡ c [MOD p] := by
  have : Fact p.Prime := ⟨hprime⟩
  rw [← ZMod.natCast_eq_natCast_iff, halfRoot_sq hp]
  by_cases hzero : (c : ZMod p) = 0
  · rw [hzero, zero_mul]
  · rw [(ZMod.euler_criterion p hzero).1 ((isSquare_iff_exists_modEq hprime.pos c).2 h), mul_one]

/-- Rule R79: the half root of a non-square is a square root of its opposite. -/
theorem halfRoot_sq_of_nonsquare {p c : Nat} (hprime : p.Prime) (hp : p % 4 = 3) (h : ¬ ∃ y, y * y % p = c % p) :
    halfRoot c p * halfRoot c p + c ≡ 0 [MOD p] := by
  have : Fact p.Prime := ⟨hprime⟩
  have hnot : ¬ IsSquare (c : ZMod p) := mt (isSquare_iff_exists_modEq hprime.pos c).1 h
  have hzero : (c : ZMod p) ≠ 0 := fun h0 => hnot (h0 ▸ IsSquare.zero)
  have hneg : (c : ZMod p) ^ (p / 2) = -1 :=
    (ZMod.pow_div_two_eq_neg_one_or_one p hzero).resolve_left (mt (ZMod.euler_criterion p hzero).2 hnot)
  rw [← ZMod.natCast_eq_natCast_iff, Nat.cast_add, halfRoot_sq hp, hneg]
  simp

/-- Modulo a prime, equal squares have equal or opposite roots. -/
theorem modEq_or_of_sq_modEq {p m r : Nat} (hprime : p.Prime) (hr : r ≤ p) (h : m * m ≡ r * r [MOD p]) :
    m ≡ r [MOD p] ∨ m ≡ p - r [MOD p] := by
  have : Fact p.Prime := ⟨hprime⟩
  simp only [← ZMod.natCast_eq_natCast_iff, Nat.cast_mul, Nat.cast_sub hr, CharP.cast_eq_zero, zero_sub] at h ⊢
  exact mul_self_eq_mul_self_iff.1 h

theorem exec_sqrtcrt_next {s : State} (hp : s.opp % 4 = 3) (hq : s.opq % 4 = 3) :
    ∃ t, exec .sqrtcrt s = .next t ∧ t.status = doneStatus Flags.none :=
  ⟨_, exec_sqrtcrt_of_three_mod_four hp hq rfl rfl rfl, rfl⟩

/-- Rule R78 (c): the results by their residues. -/
theorem sqrtcrt_residues {s t : State} (hp : s.opp % 4 = 3) (hq : s.opq % 4 = 3)
    (hcoprime : Nat.Coprime s.opp s.opq) (hexec : exec .sqrtcrt s = .next t) :
    CrtResidues s.opp s.opq (halfRoot s.opa s.opp) (halfRoot s.opa s.opq) t.res0 ∧
      CrtResidues s.opp s.opq (s.opp - halfRoot s.opa s.opp) (halfRoot s.opa s.opq) t.res1 ∧
      CrtResidues s.opp s.opq (halfRoot s.opa s.opp) (s.opq - halfRoot s.opa s.opq) t.res2 ∧
      CrtResidues s.opp s.opq (s.opp - halfRoot s.opa s.opp) (s.opq - halfRoot s.opa s.opq) t.res3 := by
  have hN : 0 < s.opp * s.opq := Nat.mul_pos (by omega) (by omega)
  rcases hegcd : egcd s.opp s.opq with ⟨g, a, b⟩
  have hbezout := bezout_of_coprime hegcd hcoprime
  rw [exec_sqrtcrt_of_three_mod_four hp hq hegcd rfl rfl] at hexec
  cases hexec
  exact ⟨crtCandidate_residues hN hbezout .., crtCandidate_residues hN hbezout .., crtCandidate_residues hN hbezout ..,
    crtCandidate_residues hN hbezout ..⟩

/-- All four results have the squares of the half roots. -/
theorem sqrtcrt_squares {s t : State} (hp : s.opp % 4 = 3) (hq : s.opq % 4 = 3)
    (hcoprime : Nat.Coprime s.opp s.opq) (hexec : exec .sqrtcrt s = .next t) {x : Nat} (hx : x ∈ results t) :
    x * x ≡ halfRoot s.opa s.opp * halfRoot s.opa s.opp [MOD s.opp] ∧
      x * x ≡ halfRoot s.opa s.opq * halfRoot s.opa s.opq [MOD s.opq] := by
  obtain ⟨h0, h1, h2, h3⟩ := sqrtcrt_residues hp hq hcoprime hexec
  have hnegp := sq_sub_modEq (halfRoot_lt hp s.opa).le
  have hnegq := sq_sub_modEq (halfRoot_lt hq s.opa).le
  simp only [results, List.mem_cons, List.not_mem_nil, or_false] at hx
  rcases hx with rfl | rfl | rfl | rfl
  · exact ⟨h0.left.mul h0.left, h0.right.mul h0.right⟩
  · exact ⟨(h1.left.mul h1.left).trans hnegp, h1.right.mul h1.right⟩
  · exact ⟨h2.left.mul h2.left, (h2.right.mul h2.right).trans hnegq⟩
  · exact ⟨(h3.left.mul h3.left).trans hnegp, (h3.right.mul h3.right).trans hnegq⟩

end Sys2Proof.Machine
end

section
/-! PROOF. What the four candidates of `SQRTCRT` are (42_sqrt_crt rules R78, R79, R82, R83). -/

namespace Sys2Proof.Machine

/-- Settles O15: the half roots are square roots modulo the factors, so each candidate is one modulo `N`. -/
theorem sqrtcrtCandidatesAreSquareRoots : Obligations.SqrtcrtCandidatesAreSquareRoots := by
  intro s hpp hqq hne hp hq hsquarep hsquareq
  have hcoprime : Nat.Coprime s.opp s.opq := (Nat.coprime_primes hpp hqq).2 hne
  obtain ⟨t, hexec, hstatus⟩ := exec_sqrtcrt_next hp hq
  refine ⟨t, hexec, hstatus, fun x hx => ?_⟩
  obtain ⟨hxp, hxq⟩ := sqrtcrt_squares hp hq hcoprime hexec hx
  exact (Nat.modEq_and_modEq_iff_modEq_mul hcoprime).1
    ⟨hxp.trans (halfRoot_sq_of_square hpp hp hsquarep), hxq.trans (halfRoot_sq_of_square hqq hq hsquareq)⟩

/-- Settles O18: modulo `p` every candidate squares to `−c`, and a candidate that squared to `c` would be a root of it.
-/
theorem sqrtcrtNonResidueIsNotDetected : Obligations.SqrtcrtNonResidueIsNotDetected := by
  intro s hpp hqq hne hp hq hnonsquare
  have hcoprime : Nat.Coprime s.opp s.opq := (Nat.coprime_primes hpp hqq).2 hne
  obtain ⟨t, hexec, hstatus⟩ := exec_sqrtcrt_next hp hq
  refine ⟨t, hexec, hstatus, fun x hx => ⟨fun hroot => hnonsquare ⟨x, ?_⟩, ?_⟩⟩
  · exact Nat.ModEq.of_mul_right s.opq hroot
  · obtain ⟨hxp, -⟩ := sqrtcrt_squares hp hq hcoprime hexec hx
    have hsum := (hxp.add_right s.opa).trans (halfRoot_sq_of_nonsquare hpp hp hnonsquare)
    exact Nat.mod_eq_zero_of_dvd (Nat.modEq_zero_iff_dvd.1 hsum)

/-- A root of `c` modulo a prime is the half root or its opposite. -/
theorem modEq_halfRoot_or {p m c : Nat} (hprime : p.Prime) (hp : p % 4 = 3) (h : m * m ≡ c [MOD p]) :
    m ≡ halfRoot c p [MOD p] ∨ m ≡ p - halfRoot c p [MOD p] :=
  modEq_or_of_sq_modEq hprime (halfRoot_lt hp c).le (h.trans (halfRoot_sq_of_square hprime hp ⟨m, h⟩).symm)

/-- Settles O16: the plaintext is a root of its ciphertext modulo each prime, so its residues are those of a candidate.
-/
theorem decryptOfEncryptFindsPlaintext : Obligations.DecryptOfEncryptFindsPlaintext := by
  intro s s' hpp hqq hne hp hq hN hm
  have hcoprime : Nat.Coprime s'.opp s'.opq := (Nat.coprime_primes hpp hqq).2 hne
  refine ⟨_, exec_modsqr_of_pos (Nat.zero_lt_of_lt hm), rfl, fun hcipher => ?_⟩
  obtain ⟨t, hexec, hstatus⟩ := exec_sqrtcrt_next hp hq
  refine ⟨t, hexec, hstatus, ?_⟩
  have hroot : s.opa * s.opa ≡ s'.opa [MOD s'.opp * s'.opq] := by
    rw [hcipher, complete_res0, hN]
    exact (Nat.mod_modEq _ _).symm
  rw [hN] at hm
  obtain ⟨h0, h1, h2, h3⟩ := sqrtcrt_residues hp hq hcoprime hexec
  simp only [results, List.mem_cons, List.not_mem_nil, or_false]
  have hfound {r u x : Nat} (hl : s.opa ≡ r [MOD s'.opp]) (hr : s.opa ≡ u [MOD s'.opq])
      (hx : CrtResidues s'.opp s'.opq r u x) : s.opa = x := CrtResidues.unique hcoprime ⟨hm, hl, hr⟩ hx
  rcases modEq_halfRoot_or hpp hp (hroot.of_mul_right _) with hl | hl
  · rcases modEq_halfRoot_or hqq hq (hroot.of_mul_left _) with hr | hr
    · exact .inl (hfound hl hr h0)
    · exact .inr (.inr (.inl (hfound hl hr h2)))
  · rcases modEq_halfRoot_or hqq hq (hroot.of_mul_left _) with hr | hr
    · exact .inr (.inl (hfound hl hr h1))
    · exact .inr (.inr (.inr (hfound hl hr h3)))

/-- Settles O17: the residues of the results, and opposite residues for opposite candidates. -/
theorem sqrtcrtCandidateResidues : Obligations.SqrtcrtCandidateResidues := by
  rintro s t r u hpp hqq hne hp hq rfl rfl hexec
  have hcoprime : Nat.Coprime s.opp s.opq := (Nat.coprime_primes hpp hqq).2 hne
  have hr := halfRoot_lt hp s.opa
  have hu := halfRoot_lt hq s.opa
  obtain ⟨h0, h1, h2, h3⟩ := sqrtcrt_residues hp hq hcoprime hexec
  have hneg1 := h1.neg (Nat.sub_le _ _) hu.le
  rw [Nat.sub_sub_self hr.le] at hneg1
  exact ⟨h0.left.trans (Nat.mod_eq_of_lt hr), h0.right.trans (Nat.mod_eq_of_lt hu), h1.left,
    h1.right.trans (Nat.mod_eq_of_lt hu), h2.left.trans (Nat.mod_eq_of_lt hr), h2.right, h3.left, h3.right,
    h3.unique hcoprime (h0.neg hr.le hu.le), h2.unique hcoprime hneg1⟩

/-- Settles O19: the residues fix the candidates, whatever the Bézout pair; they depend on `c` modulo the factors, and
the swap of the factors exchanges the residues of `m2` and `m3`. -/
theorem sqrtcrtIndependentOfBezoutPair : Obligations.SqrtcrtIndependentOfBezoutPair := by
  rintro s t a b r u hp hq hbezout rfl rfl hexec
  have hcoprime := coprime_of_bezout hbezout
  have hN : 0 < s.opp * s.opq := Nat.mul_pos (by omega) (by omega)
  have hr := halfRoot_lt hp s.opa
  have hu := halfRoot_lt hq s.opa
  obtain ⟨h0, h1, h2, h3⟩ := sqrtcrt_residues hp hq hcoprime hexec
  have hformula {x v w : Nat} (h : CrtResidues s.opp s.opq v w x) :
      (x : Int) = (a * s.opp * w + b * s.opq * v) % ((s.opp * s.opq : Nat) : Int) := by
    rw [h.unique hcoprime (crtCandidate_residues hN hbezout v w), crtCandidate_cast hN]
  have hr' : ((s.opp - halfRoot s.opa s.opp : Nat) : Int) = s.opp - halfRoot s.opa s.opp := Nat.cast_sub hr.le
  have hu' : ((s.opq - halfRoot s.opa s.opq : Nat) : Int) = s.opq - halfRoot s.opa s.opq := Nat.cast_sub hu.le
  refine ⟨hformula h0, hr' ▸ hformula h1, hu' ▸ hformula h2, hr' ▸ hu' ▸ hformula h3, ?_, ?_⟩
  · obtain ⟨t', hexec', -⟩ := exec_sqrtcrt_next (s := { s with opa := s.opa % (s.opp * s.opq) }) hp hq
    obtain ⟨g0, g1, g2, g3⟩ := sqrtcrt_residues (s := { s with opa := s.opa % (s.opp * s.opq) }) hp hq hcoprime hexec'
    have hmod : s.opa % (s.opp * s.opq) ≡ s.opa [MOD s.opp * s.opq] := Nat.mod_modEq _ _
    simp only [halfRoot_congr (hmod.of_mul_right _), halfRoot_congr (hmod.of_mul_left _)] at g0 g1 g2 g3
    refine ⟨t', hexec', ?_⟩
    rw [results, results, g0.unique hcoprime h0, g1.unique hcoprime h1, g2.unique hcoprime h2, g3.unique hcoprime h3]
  · obtain ⟨t', hexec', -⟩ := exec_sqrtcrt_next (s := { s with opp := s.opq, opq := s.opp }) hq hp
    obtain ⟨g0, g1, g2, g3⟩ :=
      sqrtcrt_residues (s := { s with opp := s.opq, opq := s.opp }) hq hp hcoprime.symm hexec'
    refine ⟨t', hexec', ?_⟩
    rw [results, g0.swap.unique hcoprime h0, g1.swap.unique hcoprime h2, g2.swap.unique hcoprime h1,
      g3.swap.unique hcoprime h3]

/-- The opposite of a half root that is not 0 is another residue, since the factor is odd. -/
theorem halfRoot_not_modEq_neg {p c : Nat} (hprime : p.Prime) (hp : p % 4 = 3) (h : c % p ≠ 0) :
    ¬ p - halfRoot c p ≡ halfRoot c p [MOD p] := fun hsame => by
  have hpos := halfRoot_ne_zero hprime h
  have hlt := halfRoot_lt hp c
  have heq := hsame.eq_of_lt_of_lt (by omega) hlt
  omega

theorem neg_halfRoot_modEq_of_dvd {p c : Nat} (hp : p % 4 = 3) (h : c % p = 0) :
    halfRoot c p ≡ p - halfRoot c p [MOD p] := by
  rw [halfRoot_of_dvd hp h]
  exact (Nat.modEq_zero_iff_dvd.2 dvd_rfl).symm

section
variable {s t : State} (hp : s.opp % 4 = 3) (hq : s.opq % 4 = 3) (hexec : exec .sqrtcrt s = .next t)
include hp hq hexec

theorem sqrtcrt_coincide_of_left (hc : s.opa % s.opp = 0) : t.res0 = t.res1 ∧ t.res2 = t.res3 := by
  have hsame := neg_halfRoot_modEq_of_dvd hp hc
  rw [exec_sqrtcrt_of_three_mod_four hp hq rfl rfl rfl] at hexec
  cases hexec
  exact ⟨crtCandidate_congr _ _ hsame rfl, crtCandidate_congr _ _ hsame rfl⟩

theorem sqrtcrt_coincide_of_right (hc : s.opa % s.opq = 0) : t.res0 = t.res2 ∧ t.res1 = t.res3 := by
  have hsame := neg_halfRoot_modEq_of_dvd hq hc
  rw [exec_sqrtcrt_of_three_mod_four hp hq rfl rfl rfl] at hexec
  cases hexec
  exact ⟨crtCandidate_congr _ _ rfl hsame, crtCandidate_congr _ _ rfl hsame⟩

theorem sqrtcrt_res0_of_zero (hcp : s.opa % s.opp = 0) (hcq : s.opa % s.opq = 0) : t.res0 = 0 := by
  rw [exec_sqrtcrt_of_three_mod_four hp hq rfl (halfRoot_of_dvd hp hcp).symm (halfRoot_of_dvd hq hcq).symm] at hexec
  cases hexec
  simp [crtCandidate, modInt]

theorem sqrtcrt_nodup (hpp : s.opp.Prime) (hqq : s.opq.Prime) (hne : s.opp ≠ s.opq) (hcp : s.opa % s.opp ≠ 0)
    (hcq : s.opa % s.opq ≠ 0) : (results t).Nodup := by
  obtain ⟨h0, h1, h2, h3⟩ := sqrtcrt_residues hp hq ((Nat.coprime_primes hpp hqq).2 hne) hexec
  have hleft := halfRoot_not_modEq_neg hpp hp hcp
  have hright := halfRoot_not_modEq_neg hqq hq hcq
  have h01 : t.res0 ≠ t.res1 := fun h => hleft (h1.left.symm.trans (h ▸ h0.left))
  have h02 : t.res0 ≠ t.res2 := fun h => hright (h2.right.symm.trans (h ▸ h0.right))
  have h03 : t.res0 ≠ t.res3 := fun h => hleft (h3.left.symm.trans (h ▸ h0.left))
  have h12 : t.res1 ≠ t.res2 := fun h => hright (h2.right.symm.trans (h ▸ h1.right))
  have h13 : t.res1 ≠ t.res3 := fun h => hright (h3.right.symm.trans (h ▸ h1.right))
  have h23 : t.res2 ≠ t.res3 := fun h => hleft (h3.left.symm.trans (h ▸ h2.left))
  simp [results, h01, h02, h03, h12, h13, h23]

theorem sqrtcrt_of_one (hcoprime : Nat.Coprime s.opp s.opq) (hc : s.opa = 1) :
    t.res0 = 1 ∧ t.res3 = s.opp * s.opq - 1 := by
  obtain ⟨h0, -, -, h3⟩ := sqrtcrt_residues hp hq hcoprime hexec
  have hN : 1 < s.opp * s.opq := Nat.one_lt_mul_iff.2 ⟨by omega, by omega, by omega⟩
  have hopposite := h3.unique hcoprime (h0.neg (halfRoot_lt hp _).le (halfRoot_lt hq _).le)
  rw [hc, halfRoot_one hp, halfRoot_one hq] at h0
  have hone : t.res0 = 1 := h0.unique hcoprime ⟨hN, rfl, rfl⟩
  exact ⟨hone, by rw [hopposite, hone, Nat.mod_eq_of_lt (by omega)]⟩

end

/-- Settles O20: coinciding half roots by `crtCandidate_congr`, coprime or not; distinct ones by their residues. -/
theorem sqrtcrtCoincidingCandidates : Obligations.SqrtcrtCoincidingCandidates := by
  intro s t hp hq hexec
  refine ⟨fun hzero => ?_, sqrtcrt_coincide_of_left hp hq hexec, sqrtcrt_coincide_of_right hp hq hexec,
    sqrtcrt_nodup hp hq hexec, sqrtcrt_of_one hp hq hexec⟩
  have hN := Nat.dvd_of_mod_eq_zero hzero
  have hcp := Nat.mod_eq_zero_of_dvd ((Nat.dvd_mul_right _ _).trans hN)
  have hcq := Nat.mod_eq_zero_of_dvd ((Nat.dvd_mul_left _ _).trans hN)
  obtain ⟨h01, h23⟩ := sqrtcrt_coincide_of_left hp hq hexec hcp
  obtain ⟨h02, -⟩ := sqrtcrt_coincide_of_right hp hq hexec hcq
  have h0 := sqrtcrt_res0_of_zero hp hq hexec hcp hcq
  rw [results, ← h23, ← h01, ← h02, h0]

end Sys2Proof.Machine
end

section
/-! SUPPORT. A host write of one word while idle, by the place it reaches, and the bits of a register after it
(20_memory rules R32, R35). -/

namespace Sys2Proof.Machine

/-- Rule R35 by word index. -/
theorem step_write_index {s : State} {i : Nat} {v : Word} {rest : List Turn} {l : Loc}
    (h : s.turns = .write (4 * i) 4 v :: rest) (hl : locate s.params i = some l) (hidle : dropsWrites s = false) :
    step s = .next (writeLoc v { s with turns := rest } l) :=
  step_write_word h (oneAlignedWord_four_mul i) (by rwa [Nat.mul_div_cancel_left i (by decide)]) hidle

theorem writeLoc_of_writable {r : Reg} (hr : regWritable r = true) (v : Word) (s : State) (j : Nat) :
    writeLoc v s (.data r j) = setReg r (setWord (regWidth s.params r) (getReg s r) j v) s := if_pos hr

theorem writeLoc_of_readonly {r : Reg} (hr : regWritable r = false) (v : Word) (s : State) (j : Nat) :
    writeLoc v s (.data r j) = s := if_neg (by simp [hr])

/-- A write of word `j` of an operand register. -/
theorem step_write_register {s : State} {r : Reg} {j : Nat} {v : Word} {rest : List Turn}
    (h : s.turns = .write (4 * (regFirst s.params r + j)) 4 v :: rest) (hr : regWritable r = true)
    (hj : j < regWords s.params r) (hidle : dropsWrites s = false) :
    step s = .next (setReg r (setWord (regWidth s.params r) (getReg s r) j v) { s with turns := rest }) := by
  rw [step_write_index h (locate_regWord hj) hidle, writeLoc_of_writable hr, ← dropTurn_of_turns_cons h,
    getReg_dropTurn, dropTurn_params]

/-- `setWord_testBit` for a register that fits, above its width too. -/
theorem setWord_testBit_of_fit {width v : Nat} (hfit : v < 2 ^ width) (j k : Nat) (x : Word) :
    (setWord width v j x).testBit k =
      if 32 * j ≤ k ∧ k < 32 * j + 32 ∧ k < width then x.getLsbD (k - 32 * j) else v.testBit k := by
  rcases Nat.lt_or_ge k width with hk | hk
  · simp [setWord_testBit width v j k x hk, hk]
  · have hpow : 2 ^ width ≤ 2 ^ k := Nat.pow_le_pow_right two_pos hk
    rw [if_neg (by omega), Nat.testBit_lt_two_pow (hfit.trans_le hpow),
      Nat.testBit_lt_two_pow ((setWord_lt width v j x).trans_le hpow)]

end Sys2Proof.Machine
end

section
/-! PROOF. The register map, and host writes to each of its places (20_memory rules R31, R35, Table 20-A). -/

namespace Sys2Proof.Machine

/-- Settles O41: a slot starts at `4 + slot·NW`, its register's words come first, and the map ends with the eighth
slot. -/
theorem registerMapFollowsTable : Obligations.RegisterMapFollowsTable := by
  intro p nw nk hnw hnk
  obtain rfl : nw = slotWords p := hnw
  obtain rfl : nk = factorWords p := hnk
  have hdata {r : Reg} {i j : Nat} (hi : i = 4 + regSlot r * slotWords p + j) (hj : j < regWords p r) :
      locate p i = some (.data r j) := hi ▸ locate_regWord hj
  have hreserved {r : Reg} {i j : Nat} (hi : i = 4 + regSlot r * slotWords p + j) (hr : r = .opp ∨ r = .opq)
      (hge : factorWords p ≤ j) (hlt : j < slotWords p) : locate p i = some .reserved :=
    hi ▸ locate_reserved_of_factor hr hge hlt
  refine ⟨locate_zero p, locate_one p, locate_two p, locate_three p, fun j hj => ?_, locate_none_iff p⟩
  exact ⟨hdata (by simp [regSlot]) hj, hdata (by simp [regSlot]) hj, hdata rfl hj, hdata rfl hj, hdata rfl hj,
    hdata rfl hj, fun hk => ⟨hdata rfl hk, hdata rfl hk⟩,
    fun hk => ⟨hreserved (r := .opp) rfl (.inl rfl) hk hj, hreserved (r := .opq) rfl (.inr rfl) hk hj⟩⟩

/-- Settles O43, by the place that word `i` is. -/
theorem hostWriteStoresIssuesOrIsIgnored : Obligations.HostWriteStoresIssuesOrIsIgnored := by
  intro s v i rest hbusy hreset hfit hi hturn
  have hidle := (dropsWrites_eq_false_iff s).2 ⟨hbusy, hreset⟩
  refine ⟨?_, ?_, ?_, ?_, ?_⟩
  · rintro r j hr hj rfl
    have hwritable : regWritable r = true := by rcases hr with rfl | rfl | rfl | rfl <;> rfl
    exact ⟨_, step_write_register hturn hwritable hj hidle, fun k => setWord_testBit_of_fit (hfit r) j k v⟩
  · rintro rfl
    exact step_write_index hturn (locate_zero _) hidle
  · rintro (rfl | rfl | rfl)
    · exact step_write_index hturn (locate_one _) hidle
    · exact step_write_index hturn (locate_two _) hidle
    · exact step_write_index hturn (locate_three _) hidle
  · rintro r j hr hj rfl
    have hresult : regWritable r = false ∧ regWords s.params r = slotWords s.params := by
      rcases hr with rfl | rfl | rfl | rfl <;> exact ⟨rfl, rfl⟩
    rw [step_write_index hturn (locate_regWord (hresult.2 ▸ hj)) hidle, writeLoc_of_readonly hresult.1]
  · rintro r j hr hge hlt rfl
    exact step_write_index hturn (locate_reserved_of_factor hr hge hlt) hidle

end Sys2Proof.Machine
end

section
/-! SUPPORT. A register written word by word, as one function of the words' indices: after it, exactly the bits of
these words are those of the value (20_memory rules R35, R37). -/

namespace Sys2Proof.Machine

/-- The register `x` after the words `js` of the value `v` are written to it, in this order. -/
def writeWords (width v : Nat) : Nat → List Nat → Nat
  | x, [] => x
  | x, j :: js => writeWords width v (setWord width x j (wordOf v j)) js

theorem writeWords_testBit {width v k : Nat} (hk : k < width) (js : List Nat) (x : Nat) :
    (writeWords width v x js).testBit k = if k / 32 ∈ js then v.testBit k else x.testBit k := by
  induction js generalizing x with
  | nil => simp [writeWords]
  | cons j js ih =>
    have hword : 32 * j ≤ k ∧ k < 32 * j + 32 ↔ k / 32 = j := by omega
    rw [writeWords, ih, setWord_testBit _ _ _ _ _ hk, wordOf_getLsbD]
    simp only [hword, List.mem_cons]
    by_cases hj : k / 32 = j
    · have hlow : k - 32 * j < 32 := by omega
      have hsplit : 32 * j + (k - 32 * j) = k := by omega
      simp [hj, hlow, hsplit]
    · simp [hj]

theorem writeWords_lt {width v x : Nat} {js : List Nat} (h : x < 2 ^ width ∨ js ≠ []) :
    writeWords width v x js < 2 ^ width := by
  induction js generalizing x with
  | nil => simpa [writeWords] using h
  | cons j js ih => exact ih (.inl (setWord_lt ..))

/-- Once every word is written, nothing is left of the old value. -/
theorem writeWords_of_all {width words v : Nat} {js : List Nat} (hv : v < 2 ^ width) (hwords : width ≤ 32 * words)
    (hpos : 0 < words) (hall : js.Perm (List.range words)) (x : Nat) : writeWords width v x js = v := by
  have hne : js ≠ [] := by
    rintro rfl
    have := hall.length_eq
    simp at this
    omega
  apply Nat.eq_of_testBit_eq
  intro k
  rcases Nat.lt_or_ge k width with hk | hk
  · rw [writeWords_testBit hk, if_pos (hall.mem_iff.2 (List.mem_range.2 (by omega)))]
  · have hpow : 2 ^ width ≤ 2 ^ k := Nat.pow_le_pow_right two_pos hk
    rw [Nat.testBit_lt_two_pow (hv.trans_le hpow), Nat.testBit_lt_two_pow ((writeWords_lt (.inr hne)).trans_le hpow)]

theorem setReg_with_turns (r : Reg) (v : Nat) (s : State) (ts : List Turn) :
    { setReg r v s with turns := ts } = setReg r v { s with turns := ts } := by
  cases r <;> rfl

/-- The run of the word writes, from a register that holds `x`. -/
theorem runSteps_word_writes {s : State} {r : Reg} (hr : regWritable r = true) (hidle : dropsWrites s = false) (v : Nat)
    (rest : List Turn) {js : List Nat} (hjs : ∀ j ∈ js, j < regWords s.params r) (x : Nat) :
    runSteps js.length (setReg r x { s with turns := js.map (wordWriteTurn s.params r v) ++ rest }) =
      .next (setReg r (writeWords (regWidth s.params r) v x js) { s with turns := rest }) := by
  induction js generalizing x with
  | nil => rfl
  | cons j js ih =>
    rw [List.forall_mem_cons] at hjs
    have hstep := step_write_register
      (s := setReg r x { s with turns := (j :: js).map (wordWriteTurn s.params r v) ++ rest }) (r := r) (j := j)
      (v := wordOf v j) (rest := js.map (wordWriteTurn s.params r v) ++ rest) (by simp [wordWriteTurn]) hr
      (by simpa using hjs.1) (by simpa [dropsWrites] using hidle)
    rw [setReg_with_turns, setReg_setReg, getReg_setReg_self, setReg_params] at hstep
    rw [List.length_cons, runSteps_succ _ hstep]
    exact ih hjs.2 _

end Sys2Proof.Machine
end

section
/-! SUPPORT. A register read word by word (20_memory rules R32, R34, R37). -/

namespace Sys2Proof.Machine

theorem wordOf_succ (v j : Nat) : wordOf v (j + 1) = wordOf (v / 2 ^ 32) j := by
  rw [wordOf, wordOf, Nat.div_div_eq_div_mul, ← pow_add, mul_add, mul_one, add_comm]

/-- The words of a value, word 0 first, reassemble to it as far as they reach. -/
theorem assembleWords_words (n v : Nat) : assembleWords ((List.range n).map (wordOf v)) = v % 2 ^ (32 * n) := by
  induction n generalizing v with
  | zero => simp [assembleWords, Nat.mod_one]
  | succ n ih =>
    have hshift : (List.range n).map (wordOf v ∘ Nat.succ) = (List.range n).map (wordOf (v / 2 ^ 32)) :=
      List.map_congr_left fun j _ => wordOf_succ v j
    have hlow : (wordOf v 0).toNat = v % 2 ^ 32 := by simp [wordOf]
    rw [List.range_succ_eq_map, List.map_cons, List.map_map, hshift, assembleWords, ih, hlow, mul_add, mul_one,
      add_comm (32 * n), pow_add, Nat.mod_mul]

theorem step_read_register {s : State} {r : Reg} {j : Nat} {rest : List Turn}
    (h : s.turns = wordReadTurn s.params r j :: rest) (hj : j < regWords s.params r) (hidle : s.status.busy = false) :
    step s = .next { s with turns := rest, replies := wordOf (getReg s r) j :: s.replies } := by
  rw [step_read_index h (locate_regWord hj), readLoc_data_of_idle hidle]

/-- The run of the word reads, with the replies `xs` received before. -/
theorem runSteps_word_reads {s : State} {r : Reg} (hidle : s.status.busy = false) (rest : List Turn) {js : List Nat}
    (hjs : ∀ j ∈ js, j < regWords s.params r) (xs : List Word) :
    runSteps js.length { s with turns := js.map (wordReadTurn s.params r) ++ rest, replies := xs } =
      .next { s with turns := rest, replies := (js.map (wordOf (getReg s r))).reverse ++ xs } := by
  induction js generalizing xs with
  | nil => rfl
  | cons j js ih =>
    rw [List.forall_mem_cons] at hjs
    have hstep := step_read_register
      (s := { s with turns := (j :: js).map (wordReadTurn s.params r) ++ rest, replies := xs }) (r := r) (j := j)
      (rest := js.map (wordReadTurn s.params r) ++ rest) rfl hjs.1 hidle
    have hreg : getReg { s with turns := (j :: js).map (wordReadTurn s.params r) ++ rest, replies := xs } r =
        getReg s r := by cases r <;> rfl
    rw [hreg] at hstep
    have hreplies : ((j :: js).map (wordOf (getReg s r))).reverse ++ xs =
        (js.map (wordOf (getReg s r))).reverse ++ wordOf (getReg s r) j :: xs := by simp
    rw [List.length_cons, runSteps_succ _ hstep, hreplies]
    exact ih hjs.2 _

end Sys2Proof.Machine
end

section
/-! PROOF. Whole-register access (20_memory rule R37). -/

namespace Sys2Proof.Machine

/-- Settles O48: in any order the writes reach every word, so the register holds the value. -/
theorem regWriteInAnyOrder : Obligations.RegWriteInAnyOrder := by
  intro s r v js rest hr hv hall hbusy hreset hturns
  have hidle := (dropsWrites_eq_false_iff s).2 ⟨hbusy, hreset⟩
  have hrun := runSteps_word_writes hr hidle v rest (fun j hj => List.mem_range.1 (hall.mem_iff.1 hj)) (getReg s r)
  have hstart : setReg r (getReg s r) { s with turns := js.map (wordWriteTurn s.params r v) ++ rest } = s := by
    rw [← hturns]
    exact setReg_getReg r s
  rwa [hstart, writeWords_of_all hv (regWidth_le _ _) (regWords_pos _ _) hall] at hrun

/-- Settles O49: the replies are the words of the register, which reach its whole width. -/
theorem regReadReassembles : Obligations.RegReadReassembles := by
  intro s r rest hfit hbusy hturns
  have hrun := runSteps_word_reads hbusy rest (r := r) (fun j hj => List.mem_range.1 hj) s.replies
  rw [← regReadTurns, ← hturns, List.length_range] at hrun
  refine ⟨_, hrun, by simp, ?_⟩
  rw [assembleWords_words, Nat.mod_eq_of_lt]
  exact (hfit r).trans_le (Nat.pow_le_pow_right two_pos (regWidth_le _ _))

end Sys2Proof.Machine
end

section
/-! SUPPORT. A run of `MRTEST` with its answers, round by round, in the states between the block's turns
(40_primality_test rules R58 to R61, 60_exceptions rule R114). -/

namespace Sys2Proof.Machine

/-- The `MRTEST` issued in `s` has passed `i` rounds and waits for its next draw; the answers `as` are scheduled. -/
def awaiting (s : State) (i : Nat) (as : List Answer) : State :=
  { s with rnd := .waiting, round := i, requests := s.requests + i + 1,
           turns := answerTurns (s.requests + i + 1) as }

/-- The same with the answer `a` in hand. -/
def inHand (s : State) (i : Nat) (a : Answer) (as : List Answer) : State :=
  { s with rnd := .answered (answerOnWires s.params a), round := i, requests := s.requests + i + 1,
           turns := answerTurns (s.requests + i + 1 + 1) as }

/-- The answer arrives, and the block uses it. -/
theorem runSteps_round {s t : State} {i : Nat} {a : Answer} {as : List Answer} (n : Nat)
    (hcommand : s.command = some (encode .mrtest)) (hexec : exec .mrtest (inHand s i a as) = .next t) :
    runSteps (n + 2) (awaiting s i (a :: as)) = runSteps n t := by
  have harrive : step (awaiting s i (a :: as)) =
      .next { inHand s i a as with turns := .block :: answerTurns (s.requests + i + 1 + 1) as } := by
    rw [step_of_answer (s := awaiting s i (a :: as)) rfl]
    exact congrArg _ (acceptAnswer_of_outstanding a rfl rfl)
  have huse : step { inHand s i a as with turns := .block :: answerTurns (s.requests + i + 1 + 1) as } = .next t := by
    refine (step_of_encode (i := .mrtest) ?_ ?_).trans hexec
    · exact .inr rfl
    · exact hcommand
  rw [runSteps_succ _ harrive, runSteps_succ _ huse]

/-- Issue's first turn of the block, on a candidate that needs draws. -/
theorem step_first_request {s : State} {as : List Answer} (hcommand : s.command = some (encode .mrtest))
    (hrnd : s.rnd = .idle) (hround : s.round = 0) (hdraws : mrWithoutDraws s.opa = none)
    (hturns : s.turns = .block :: answerTurns (s.requests + 1) as) : step s = .next (awaiting s 0 as) := by
  have hnext : requestDraw (dropTurn s) = awaiting s 0 as := by
    simp [dropTurn, requestDraw, awaiting, hturns, hround]
  rw [step_of_encode (.inr (by rw [hturns]; rfl)) hcommand, ← hnext]
  exact exec_mrtest_of_idle hdraws hrnd

/-- Issue's first turn of the block, on a candidate that needs none. -/
theorem step_without_draws {s : State} {prime : Bool} {rest : List Turn} (hcommand : s.command = some (encode .mrtest))
    (hdraws : mrWithoutDraws s.opa = some prime) (hturns : s.turns = .block :: rest) :
    step s = .next (completeMrtest prime { s with turns := rest }) := by
  rw [step_of_encode (.inr (by rw [hturns]; rfl)) hcommand, dropTurn_of_turns_cons hturns]
  exact exec_mrtest_of_no_draw hdraws

end Sys2Proof.Machine
end

section
/-! PROOF. The steps of `MRTEST` refine Listing 40-A (40_primality_test rules R58, R60, R61). -/

namespace Sys2Proof.Machine

section
variable {s : State} (hcommand : s.command = some (encode .mrtest)) (hdraws : mrWithoutDraws s.opa = none)
include hcommand hdraws

theorem runSteps_failed_draw (i : Nat) (as : List Answer) (n : Nat) :
    runSteps (n + 2) (awaiting s i (.fail :: as)) =
      runSteps n (commandError .randomSourceFailure (inHand s i .fail as)) :=
  runSteps_round n hcommand (exec_mrtest_of_fail hdraws rfl)

theorem runSteps_answered_draw {w : Nat} (hfits : w < 2 ^ s.params.w) (i : Nat) (as : List Answer) (n : Nat) :
    runSteps (n + 2) (awaiting s i (.ok w :: as)) = runSteps n (mrtestRound w (inHand s i (.ok w) as)) := by
  refine runSteps_round n hcommand (exec_mrtest_of_ok hdraws ?_)
  rw [inHand, answerOnWires, Nat.mod_eq_of_lt hfits]

/-- With `left` rounds to go the machine follows the listing's loop, answer by answer. -/
theorem runSteps_listingRounds (as : List Answer) (i left : Nat) (hleft : i + (left + 1) = s.params.rounds)
    (hfits : ∀ w, Answer.ok w ∈ as → w < 2 ^ s.params.w) :
    (∀ r, listingRounds s.opa (left + 1) as = some (r, []) →
      runSteps (2 * as.length) (awaiting s i as) =
        .next (mrtestEnd r { s with turns := [], requests := s.requests + (i + as.length) })) ∧
    (listingRounds s.opa (left + 1) as = none →
      runSteps (2 * as.length) (awaiting s i as) = .next (awaiting s (i + as.length) [])) := by
  induction as generalizing i left with
  | nil => exact ⟨fun r h => by simp [listingRounds] at h, fun _ => rfl⟩
  | cons a as ih =>
    have hlength : 2 * (a :: as).length = 2 * as.length + 2 := rfl
    cases a with
    | fail =>
      rw [hlength, runSteps_failed_draw hcommand hdraws]
      refine ⟨fun r h => ?_, fun h => by simp [listingRounds] at h⟩
      obtain ⟨rfl, rfl⟩ : .error .randomSourceFailure = r ∧ as = [] := by simpa [listingRounds] using h
      rfl
    | ok w =>
      rw [hlength, runSteps_answered_draw hcommand hdraws (hfits w List.mem_cons_self)]
      cases hpass : mrRoundPasses s.opa (mrBase s.opa w) with
      | false =>
        rw [mrtestRound_of_failed (s := inHand s i (.ok w) as) hpass]
        refine ⟨fun r h => ?_, fun h => by simp [listingRounds, hpass] at h⟩
        obtain ⟨rfl, rfl⟩ : .ok false = r ∧ as = [] := by simpa [listingRounds, hpass] using h
        rfl
      | true =>
        cases left with
        | zero =>
          rw [mrtestRound_of_last (s := inHand s i (.ok w) as) hpass hleft.ge]
          refine ⟨fun r h => ?_, fun h => by simp [listingRounds, hpass] at h⟩
          obtain ⟨rfl, rfl⟩ : .ok true = r ∧ as = [] := by simpa [listingRounds, hpass] using h
          rfl
        | succ left =>
          have hmore : i + 1 < s.params.rounds := by omega
          have hnext : mrtestRound w (inHand s i (.ok w) as) = awaiting s (i + 1) as := mrtestRound_of_more hpass hmore
          have hloop : listingRounds s.opa (left + 1 + 1) (.ok w :: as) = listingRounds s.opa (left + 1) as := by
            rw [listingRounds, if_pos hpass]
          have hcount : i + (Answer.ok w :: as).length = i + 1 + as.length := by rw [List.length_cons]; omega
          rw [hnext, hloop, hcount]
          exact ih (i + 1) left (by omega) fun w' hw' => hfits w' (List.mem_cons_of_mem _ hw')

end

/-- Settles O32: a candidate without draws completes at issue's first turn; any other makes its first request there,
and then follows the loop. -/
theorem mrtestStepsRefineListing : Obligations.MrtestStepsRefineListing := by
  intro s as hcommand hrnd hround hturns hfits
  have hsteps : 1 + 2 * as.length = 2 * as.length + 1 := Nat.add_comm ..
  cases hdraws : mrWithoutDraws s.opa with
  | some prime =>
    refine ⟨fun r h => ?_, fun h => by simp [listing40A, hdraws] at h⟩
    obtain ⟨rfl, rfl⟩ : .ok prime = r ∧ as = [] := by simpa [listing40A, hdraws] using h
    rw [hsteps, runSteps_succ _ (step_without_draws hcommand hdraws hturns)]
    rfl
  | none =>
    have hlegal := s.params.legal
    obtain ⟨left, hleft⟩ : ∃ left, s.params.rounds = left + 1 := ⟨s.params.rounds - 1, by omega⟩
    have hloop : listing40A s.params.rounds s.opa as = listingRounds s.opa (left + 1) as := by
      simp [listing40A, hdraws, hleft]
    rw [hsteps, hloop, runSteps_succ _ (step_first_request hcommand hrnd hround hdraws hturns)]
    have hrun := runSteps_listingRounds hcommand hdraws as 0 left (by omega) hfits
    rw [Nat.zero_add] at hrun
    exact hrun

end Sys2Proof.Machine
end

section
/-! PROOF. `MRTEST` completes within its rounds (70_reset_and_hazards rule R125). -/

namespace Sys2Proof.Machine

/-- `MRTEST` has completed: nothing in flight, no request outstanding, `BUSY` 0 and `DONE` 1. -/
structure Completed (t : State) : Prop where
  command : t.command = none
  rnd : t.rnd = .idle
  busy : t.status.busy = false
  done : t.status.done = true

/-- A completed block discards the answers still to come. -/
theorem runSteps_late_answers {s : State} {k : Nat} {as : List Answer} (hdone : Completed s)
    (hturns : s.turns = answerTurns k as) : ∃ t, runSteps (2 * as.length) s = .next t ∧ Completed t := by
  induction as generalizing s k with
  | nil => exact ⟨s, rfl, hdone⟩
  | cons a as ih =>
    have hdiscard : step s = .next { s with turns := .block :: answerTurns (k + 1) as } := by
      rw [step_of_answer hturns]
      exact congrArg _ (acceptAnswer_of_late a (.inl (by simp [hdone.rnd])))
    have hidle : step { s with turns := .block :: answerTurns (k + 1) as } =
        .next { s with turns := answerTurns (k + 1) as } := by
      rw [step_of_block rfl]
      exact blockTurn_idle _ hdone.command
    have hlength : 2 * (a :: as).length = 2 * as.length + 1 + 1 := rfl
    rw [hlength, runSteps_succ _ hdiscard, runSteps_succ _ hidle]
    exact ih (s := { s with turns := answerTurns (k + 1) as })
      ⟨hdone.command, hdone.rnd, hdone.busy, hdone.done⟩ rfl

/-- The block uses an answer: the test completes, or it has more rounds to go. -/
theorem exec_mrtest_inHand (s : State) (i : Nat) (a : Answer) (as : List Answer) :
    ∃ t, exec .mrtest (inHand s i a as) = .next t ∧
      ((Completed t ∧ t.turns = answerTurns (s.requests + i + 1 + 1) as) ∨
        (i + 1 < s.params.rounds ∧ t = awaiting s (i + 1) as)) := by
  obtain ⟨t, hexec, hcases⟩ := exec_cases .mrtest (inHand s i a as)
  refine ⟨t, hexec, ?_⟩
  rcases hcases with ⟨r0, r1, r2, r3, f, -, rfl⟩ | ⟨e, -, rfl⟩ | ⟨-, -, ⟨hrnd, -⟩ | ⟨hrnd, -⟩ | ⟨w, -, hmore, rfl⟩⟩
  · exact .inl ⟨⟨rfl, rfl, rfl, rfl⟩, rfl⟩
  · exact .inl ⟨⟨rfl, rfl, rfl, rfl⟩, rfl⟩
  · cases hrnd
  · cases hrnd
  · exact .inr ⟨hmore, rfl⟩

theorem runSteps_completes {s : State} (hcommand : s.command = some (encode .mrtest)) (as : List Answer) (i : Nat)
    (hlt : i < s.params.rounds) (hanswers : i + as.length = s.params.rounds) :
    ∃ t, runSteps (2 * as.length) (awaiting s i as) = .next t ∧ Completed t := by
  induction as generalizing i with
  | nil => exact absurd hanswers hlt.ne
  | cons a as ih =>
    have hlength : 2 * (a :: as).length = 2 * as.length + 2 := rfl
    obtain ⟨t, hexec, ⟨hdone, hturns⟩ | ⟨hmore, rfl⟩⟩ := exec_mrtest_inHand s i a as
    · rw [hlength, runSteps_round _ hcommand hexec]
      exact runSteps_late_answers hdone hturns
    · rw [hlength, runSteps_round _ hcommand hexec]
      rw [List.length_cons] at hanswers
      exact ih (i + 1) hmore (by omega)

/-- Settles O33: each answer completes the test or leaves one round less to go. -/
theorem mrtestCompletesWithinItsRounds : Obligations.MrtestCompletesWithinItsRounds := by
  intro s as hcommand hrnd hround hturns hlength
  have hsteps : 1 + 2 * as.length = 2 * as.length + 1 := Nat.add_comm ..
  have hrun : ∃ t, runSteps (2 * as.length + 1) s = .next t ∧ Completed t := by
    cases hdraws : mrWithoutDraws s.opa with
    | some prime =>
      rw [runSteps_succ _ (step_without_draws hcommand hdraws hturns)]
      exact runSteps_late_answers ⟨rfl, rfl, rfl, rfl⟩ rfl
    | none =>
      have hlegal := s.params.legal
      rw [runSteps_succ _ (step_first_request hcommand hrnd hround hdraws hturns)]
      exact runSteps_completes hcommand as 0 (by omega) (by omega)
  obtain ⟨t, hrun, hdone⟩ := hrun
  exact ⟨t, hsteps ▸ hrun, hdone.command, hdone.busy, hdone.done⟩

end Sys2Proof.Machine
end

section
/-! PROOF. Without an answer `MRTEST` hangs (60_exceptions rule R115). -/

namespace Sys2Proof.Machine

/-- An `MRTEST` waits for a draw that no turn of the schedule brings, and no turn resets the block or is refused. -/
structure Hanging (s : State) : Prop where
  command : s.command = some (encode .mrtest)
  busy : s.status.busy = true
  waiting : s.rnd = .waiting
  draws : mrWithoutDraws s.opa = none
  schedule : ∀ u ∈ s.turns, turnOk s.params u = true ∧ u ≠ .reset ∧ ∀ a, u ≠ .answer s.requests a

/-- What a hanging block keeps of `s`. -/
structure Unchanged (s t : State) : Prop where
  params : t.params = s.params
  command : t.command = s.command
  status : t.status = s.status
  rnd : t.rnd = s.rnd
  requests : t.requests = s.requests
  registers : ∀ r, getReg t r = getReg s r

theorem Unchanged.trans {s t u : State} (h : Unchanged s t) (h' : Unchanged t u) : Unchanged s u :=
  ⟨h'.params.trans h.params, h'.command.trans h.command, h'.status.trans h.status, h'.rnd.trans h.rnd,
    h'.requests.trans h.requests, fun r => (h'.registers r).trans (h.registers r)⟩

theorem Hanging.head {s : State} (h : Hanging s) {u : Turn} (hu : s.turns.head? = some u) :
    turnOk s.params u = true ∧ u ≠ .reset ∧ ∀ a, u ≠ .answer s.requests a :=
  h.schedule u (List.mem_of_head? hu)

/-- Of the effects of a step a hanging block shows at most a reply and the release of reset. -/
theorem Hanging.unchanged {s t : State} (h : Hanging s) (hstep : step s = .next t) :
    Unchanged s t ∧ t.turns = s.turns.tail := by
  have hdrop : dropsWrites s = true := (dropsWrites_iff s).2 (.inl h.busy)
  cases step_effect hstep with
  | nothing | reply | release => exact ⟨⟨rfl, rfl, rfl, rfl, rfl, fun r => by simp⟩, rfl⟩
  | issue _ hidle | store _ _ _ hidle => simp [hdrop] at hidle
  | firstRequest _ _ hrnd | nextRequest _ _ _ hrnd => simp [h.waiting] at hrnd
  | answer a _ hturn => exact absurd rfl ((h.head hturn).2.2 a)
  | reset hturn => exact absurd rfl (h.head hturn).2.1
  | completion w t hmoves _ hends =>
    rw [step_of_encode hmoves h.command, exec_mrtest_of_waiting (s := dropTurn s) h.draws h.waiting] at hstep
    cases hstep
    obtain ⟨hdone, -⟩ := hends.frame
    simp [h.command] at hdone

theorem Hanging.step {s : State} (h : Hanging s) : ∃ t, step s = .next t ∧ Hanging t ∧ Unchanged s t := by
  obtain ⟨t, hstep⟩ := (stepStopsOnlyOnBadAccess s).1.2 fun u hu => (h.head hu).1
  obtain ⟨hsame, hturns⟩ := h.unchanged hstep
  refine ⟨t, hstep, ⟨hsame.command.trans h.command, hsame.status ▸ h.busy, hsame.rnd.trans h.waiting, ?_, ?_⟩, hsame⟩
  · rw [show t.opa = s.opa from hsame.registers .opa]
    exact h.draws
  · rw [hturns, hsame.params, hsame.requests]
    exact fun u hu => h.schedule u (List.mem_of_mem_tail hu)

theorem Hanging.run {s : State} (h : Hanging s) (n : Nat) : ∃ t, runSteps n s = .next t ∧ Unchanged s t := by
  induction n generalizing s with
  | zero => exact ⟨s, rfl, rfl, rfl, rfl, rfl, rfl, fun _ => rfl⟩
  | succ n ih =>
    obtain ⟨u, hstep, hu, hfirst⟩ := h.step
    obtain ⟨t, hrun, hrest⟩ := ih hu
    exact ⟨t, (runSteps_succ n hstep).trans hrun, hfirst.trans hrest⟩

/-- Settles O34, by the invariant `Hanging`. -/
theorem mrtestHangsWithoutAnAnswer : Obligations.MrtestHangsWithoutAnAnswer := by
  rintro s rest hcommand hbusy hwaiting hge hodd rfl hschedule n
  have hhanging : Hanging s := ⟨hcommand, hbusy, hwaiting, (mrWithoutDraws_none_iff _).2 ⟨hge, hodd⟩, hschedule⟩
  obtain ⟨t, hrun, hsame⟩ := hhanging.run n
  exact ⟨t, hrun, hsame.command, hsame.status, hsame.rnd.trans hwaiting, hsame.requests, hsame.registers⟩

end Sys2Proof.Machine
end
